-- ==== Sys2Proof/Word.lean ====
section
/-! DEFINITION. The words of the request and response ports, and the two element formats (rules R8, R24, R25). -/

namespace Sys2Proof

/-- An operand bus or the result bus: 512 bits (R9, R24, R25). -/
abbrev Bus := BitVec 512

/-- The operation-select word OPSEL: 8 bits (R60). -/
abbrev Opsel := BitVec 8

/-- The two parameters that fix an IEEE-754 element format (R8); the lane width is `1 + ew + p`. -/
structure Fmt where
  /-- p, `mantissa_digits`: the number of explicit mantissa bits. -/
  p : Nat
  /-- EW: the width of the exponent field. -/
  ew : Nat
  deriving DecidableEq, Repr

/-- f32: W = 32, p = 23, EW = 8 (R8). -/
def binary32 : Fmt := ⟨23, 8⟩

/-- f64: W = 64, p = 52, EW = 11 (R8). -/
def binary64 : Fmt := ⟨52, 11⟩

/-- The exponent bias, `2^(EW-1) - 1`: 127 or 1023 (R8). -/
def Fmt.bias (F : Fmt) : Nat := 2 ^ (F.ew - 1) - 1

/-- The all-ones exponent field, of infinities and NaN: 255 or 2047 (R8). -/
def Fmt.expOnes (F : Fmt) : Nat := 2 ^ F.ew - 1

end Sys2Proof
end

