-- ==== Sys2Proof/Machine/Bits.lean ====
section
/-! DEFINITION. The bit reinterpretation layer and the exact-arithmetic helpers (40_bit_reinterpret.md R80 to R94).
A lane is a W-bit pattern `x : BitVec w`; the format `F` says where its fields are. -/

namespace Sys2Proof.Machine

/-- `bits(x)`: the unsigned integer of the same bits (R80). -/
def bits {w : Nat} (x : BitVec w) : Nat := x.toNat

/-- `from_bits(u)`: the lane with the bits of u (R80). -/
def fromBits (w u : Nat) : BitVec w := BitVec.ofNat w u

/-- The sign mask, `1 << (W-1)`; as a pattern it is -0 (R8, R92). -/
def signMask (w : Nat) : BitVec w := BitVec.ofNat w (2 ^ (w - 1))

/-- The magnitude mask, `~(sign mask)` (R8). -/
def magMask (w : Nat) : BitVec w := ~~~ signMask w

/-- `mantissa_mask = (1 << p) - 1` (R82). -/
def mantissaMask (F : Fmt) (w : Nat) : BitVec w := BitVec.ofNat w (2 ^ F.p - 1)

/-- The sign s, bit W-1 (R81). -/
def sign {w : Nat} (x : BitVec w) : Bool := x.msb

/-- The magnitude `bits(|x|)`: the sign bit cleared (R85). -/
def magnitude {w : Nat} (x : BitVec w) : BitVec w := x &&& magMask w

/-- `exponent(x)`, the biased exponent field E(x) (R83). -/
def expField (F : Fmt) {w : Nat} (x : BitVec w) : Nat := (magnitude x).toNat >>> F.p

/-- `frac(x)`, the mantissa field, in place (R18, R81). -/
def frac (F : Fmt) {w : Nat} (x : BitVec w) : BitVec w := x &&& mantissaMask F w

/-- The unbiased exponent e(x) = E(x) - bias (R84). -/
def unbiasedExp (F : Fmt) {w : Nat} (x : BitVec w) : Int := (expField F x : Int) - (F.bias : Int)

/-- +Inf: the all-ones exponent field (R18, R92). -/
def posInf (F : Fmt) (w : Nat) : BitVec w := BitVec.ofNat w (F.expOnes * 2 ^ F.p)

/-- +1.0: `bias << p` (R18, R92). -/
def posOne (F : Fmt) (w : Nat) : BitVec w := BitVec.ofNat w (F.bias * 2 ^ F.p)

/-- -1.0: +1.0 with the sign mask OR-ed in (R18, R92). -/
def negOne (F : Fmt) (w : Nat) : BitVec w := signMask w ||| posOne F w

/-- MAX: the largest finite magnitude (R90, R92). -/
def maxFinite (F : Fmt) (w : Nat) : BitVec w := BitVec.ofNat w (F.expOnes * 2 ^ F.p - 1)

/-- The magic number 2^p of round (R92, R111). -/
def magicNumber (F : Fmt) (w : Nat) : BitVec w := BitVec.ofNat w ((F.bias + F.p) * 2 ^ F.p)

/-- The classes of a lane (R86). A zero's and an infinity's sign is the lane's sign bit. -/
inductive FpClass where
  | zero | subnormal | normal | infinity | quietNaN | signalingNaN
  deriving DecidableEq, Repr

/-- Classification: every pattern falls in one class (R86). -/
def classify (F : Fmt) {w : Nat} (x : BitVec w) : FpClass :=
  if expField F x = 0 then
    if frac F x = 0 then .zero else .subnormal
  else if expField F x = F.expOnes then
    if frac F x = 0 then .infinity
    else if x.getLsbD (F.p - 1) then .quietNaN else .signalingNaN
  else .normal

/-- x is a member of `NaN_W` (R86, R91). -/
def isNaN (F : Fmt) {w : Nat} (x : BitVec w) : Bool := expField F x == F.expOnes && frac F x != 0

/-- x is +Inf or -Inf (R86). -/
def isInf (F : Fmt) {w : Nat} (x : BitVec w) : Bool := expField F x == F.expOnes && frac F x == 0

/-- x is +0 or -0 (R86). -/
def isZero {w : Nat} (x : BitVec w) : Bool := magnitude x == 0

/-- x is finite: neither an infinity nor a NaN (R86). -/
def isFinite (F : Fmt) {w : Nat} (x : BitVec w) : Bool := expField F x != F.expOnes

/-- `anyNaN_W` (R13, R91): the NaN pattern that the free value d stands for. The sign and the mantissa are d's;
a mantissa of 0, which no NaN has, stands for 1. Every NaN pattern is reached (log 7). -/
def anyNaN (F : Fmt) {w : Nat} (d : BitVec w) : BitVec w :=
  if frac F d = 0 then (d ||| posInf F w) ||| 1#w else d ||| posInf F w

/-- An exact value `(-1)^s * M * 2^k` (R88). -/
structure Exact where
  s : Bool
  M : Nat
  k : Int
  deriving DecidableEq, Repr

/-- `decode(x)` of a finite lane (R88). -/
def decodeLane (F : Fmt) {w : Nat} (x : BitVec w) : Exact :=
  if expField F x = 0 then ⟨sign x, (frac F x).toNat, 1 - (F.bias : Int) - (F.p : Int)⟩
  else ⟨sign x, (frac F x).toNat ||| 2 ^ F.p, (expField F x : Int) - (F.bias : Int) - (F.p : Int)⟩

/-- `bit_length(M)` (R89). -/
def bitLength (M : Nat) : Nat := if M = 0 then 0 else M.log2 + 1

/-- The binade of `M * 2^k`: `2^ex <= M * 2^k < 2^(ex+1)` (R89). -/
def binade (M : Nat) (k : Int) : Int := (bitLength M : Int) - 1 + k

/-- The exponent that fixes the quantum: the binade, but no less than `emin = 1 - bias` (R89). -/
def roundExp (F : Fmt) (M : Nat) (k : Int) : Int :=
  if binade M k < 1 - (F.bias : Int) then 1 - (F.bias : Int) else binade M k

/-- `sh`: how many low bits of M lie below the quantum; not positive when M is exact (R89). -/
def roundShift (F : Fmt) (M : Nat) (k : Int) : Int := roundExp F M k - (F.p : Int) - k

/-- The significand rounded to nearest, ties to even (R89). -/
def roundNearest (M : Nat) (sh : Int) : Nat :=
  if sh ≤ 0 then M <<< (-sh).toNat
  else
    let q := M >>> sh.toNat
    let r := M % 2 ^ sh.toNat
    let half := 2 ^ (sh.toNat - 1)
    if r > half ∨ (r = half ∧ q % 2 = 1) then q + 1 else q

/-- The significand rounded toward zero, for the lower member of the faithful set (R90). -/
def roundDown (M : Nat) (sh : Int) : Nat :=
  if sh ≤ 0 then M <<< (-sh).toNat else M >>> sh.toNat

/-- The magnitude pattern of significand q in the binade ex: the carry into the next binade, overflow to
infinity, subnormals and zero, normals (R89, last four lines). -/
def assemble (F : Fmt) (q : Nat) (ex : Int) : Nat :=
  let q' := if q = 2 ^ (F.p + 1) then 2 ^ F.p else q
  let ex' := if q = 2 ^ (F.p + 1) then ex + 1 else ex
  if ex' > (F.bias : Int) then F.expOnes * 2 ^ F.p
  else if q' < 2 ^ F.p then q'
  else (ex' + (F.bias : Int)).toNat * 2 ^ F.p + (q' - 2 ^ F.p)

/-- A magnitude pattern with a sign: `(s << (W-1)) | mag`. -/
def withSign {w : Nat} (s : Bool) (mag : Nat) : BitVec w :=
  (if s then signMask w else 0#w) ||| BitVec.ofNat w mag

/-- `RNE_W(s, M, k)`: the exact value `(-1)^s * M * 2^k` rounded to nearest, ties to even (R89). M = 0 is left out by
the rule; there it is the zero of sign s when k <= bias + 1 and the infinity of sign s above (DESIGN CHOICE, log 21). -/
def rne (F : Fmt) (w : Nat) (v : Exact) : BitVec w :=
  withSign v.s (assemble F (roundNearest v.M (roundShift F v.M v.k)) (roundExp F v.M v.k))

/-- v is representable in the format: it is within MAX and no bit of M lies below the quantum (R90). -/
def representable (F : Fmt) (v : Exact) : Bool :=
  decide (roundExp F v.M v.k ≤ (F.bias : Int)) &&
    (decide (roundShift F v.M v.k ≤ 0) || v.M % 2 ^ (roundShift F v.M v.k).toNat == 0)

/-- RD: the pattern of the largest finite magnitude not above |v|: MAX when v's binade is above the largest
one, otherwise v's significand rounded down (R90). -/
def faithfulDown (F : Fmt) (v : Exact) : Nat :=
  if roundExp F v.M v.k > (F.bias : Int) then F.expOnes * 2 ^ F.p - 1
  else assemble F (roundDown v.M (roundShift F v.M v.k)) (roundExp F v.M v.k)

/-- RU: the pattern of the smallest magnitude not below |v|; the next pattern after RD unless v is
representable (R90). -/
def faithfulUp (F : Fmt) (v : Exact) : Nat :=
  if representable F v then faithfulDown F v else faithfulDown F v + 1

/-- `Faithful_W(s, M, k)`, as the list of its members RD and RU (R90). M = 0 is left out by the rule; there both are
the zero of sign s when k <= bias + 1, and MAX and the infinity above (DESIGN CHOICE, log 21). -/
def faithful (F : Fmt) (w : Nat) (v : Exact) : List (BitVec w) :=
  [withSign v.s (faithfulDown F v), withSign v.s (faithfulUp F v)]

/-- A free choice between two admitted results, by one bit of the free value d (R152, R181; log 8). -/
def choose {w : Nat} (d lo hi : BitVec w) : BitVec w := if d.getLsbD 0 then hi else lo

/-- `mul32(a, b) = (a * b) >> 32` (R94). -/
def mul32 (a b : BitVec 32) : BitVec 32 := BitVec.ofNat 32 ((a.toNat * b.toNat) >>> 32)

/-- `isqrt(n) = floor(sqrt(n))`, found bit by bit from bit `fuel - 1` down; right for `n < 4^fuel` (R155). -/
def isqrt (n : Nat) : Nat → Nat → Nat
  | 0, root => root
  | fuel + 1, root =>
    if (root + 2 ^ fuel) * (root + 2 ^ fuel) ≤ n then isqrt n fuel (root + 2 ^ fuel) else isqrt n fuel root

end Sys2Proof.Machine
end

