-- ==== Sys2Proof/Syntax.lean ====
section
/-! DEFINITION. The 39 operations (rules R3, R66, R70) and the three parts of an operation's name (R61 to R63). -/

namespace Sys2Proof

/-- One constructor per row of the opcode map (R70). No operation has an operand of its own: every operand
is a bus of the request port (R65). -/
inductive Instr where
  | truncF32x2 | truncF32x4 | truncF32x8 | truncF64x2 | truncF64x4 | truncF64x8
  | fractF32x2 | fractF32x4 | fractF32x8 | fractF64x2 | fractF64x4 | fractF64x8
  | floorF32x2 | floorF32x4 | floorF32x8 | floorF64x2 | floorF64x4 | floorF64x8
  | ceilF32x2 | ceilF32x4 | ceilF32x8 | ceilF64x2 | ceilF64x4 | ceilF64x8
  | roundF32x2 | roundF32x4 | roundF32x8 | roundF64x2 | roundF64x4 | roundF64x8
  | sqrtF32x2 | sqrtF32x4 | sqrtF32x8 | sqrtF64x2 | sqrtF64x4 | sqrtF64x8
  | fmaF32x2 | fmaF32x4 | fmaF32x8
  deriving DecidableEq, Repr

/-- The operation kinds (R61). -/
inductive OpKind where
  | trunc | fract | floor | ceil | round | sqrt | fma
  deriving DecidableEq, Repr

/-- The element types (R62). -/
inductive ElemType where
  | f32 | f64
  deriving DecidableEq, Repr

/-- The lane counts (R63). -/
inductive LaneCount where
  | x2 | x4 | x8
  deriving DecidableEq, Repr

/-- The format of an element type. -/
def ElemType.fmt : ElemType → Fmt
  | .f32 => binary32
  | .f64 => binary64

/-- W, the lane width in bits (R8, R62). -/
def ElemType.width : ElemType → Nat
  | .f32 => 32
  | .f64 => 64

/-- N, the number of lanes (R9, R63). -/
def LaneCount.count : LaneCount → Nat
  | .x2 => 2
  | .x4 => 4
  | .x8 => 8

/-- The three parts of an operation's name, `round_<operation>_<type>x<lanes>` (R3, R70). -/
structure NameParts where
  kind : OpKind
  elem : ElemType
  lanes : LaneCount
  deriving DecidableEq, Repr

/-- The parts of an instruction's name. -/
def Instr.parts : Instr → NameParts
  | .truncF32x2 => ⟨.trunc, .f32, .x2⟩
  | .truncF32x4 => ⟨.trunc, .f32, .x4⟩
  | .truncF32x8 => ⟨.trunc, .f32, .x8⟩
  | .truncF64x2 => ⟨.trunc, .f64, .x2⟩
  | .truncF64x4 => ⟨.trunc, .f64, .x4⟩
  | .truncF64x8 => ⟨.trunc, .f64, .x8⟩
  | .fractF32x2 => ⟨.fract, .f32, .x2⟩
  | .fractF32x4 => ⟨.fract, .f32, .x4⟩
  | .fractF32x8 => ⟨.fract, .f32, .x8⟩
  | .fractF64x2 => ⟨.fract, .f64, .x2⟩
  | .fractF64x4 => ⟨.fract, .f64, .x4⟩
  | .fractF64x8 => ⟨.fract, .f64, .x8⟩
  | .floorF32x2 => ⟨.floor, .f32, .x2⟩
  | .floorF32x4 => ⟨.floor, .f32, .x4⟩
  | .floorF32x8 => ⟨.floor, .f32, .x8⟩
  | .floorF64x2 => ⟨.floor, .f64, .x2⟩
  | .floorF64x4 => ⟨.floor, .f64, .x4⟩
  | .floorF64x8 => ⟨.floor, .f64, .x8⟩
  | .ceilF32x2 => ⟨.ceil, .f32, .x2⟩
  | .ceilF32x4 => ⟨.ceil, .f32, .x4⟩
  | .ceilF32x8 => ⟨.ceil, .f32, .x8⟩
  | .ceilF64x2 => ⟨.ceil, .f64, .x2⟩
  | .ceilF64x4 => ⟨.ceil, .f64, .x4⟩
  | .ceilF64x8 => ⟨.ceil, .f64, .x8⟩
  | .roundF32x2 => ⟨.round, .f32, .x2⟩
  | .roundF32x4 => ⟨.round, .f32, .x4⟩
  | .roundF32x8 => ⟨.round, .f32, .x8⟩
  | .roundF64x2 => ⟨.round, .f64, .x2⟩
  | .roundF64x4 => ⟨.round, .f64, .x4⟩
  | .roundF64x8 => ⟨.round, .f64, .x8⟩
  | .sqrtF32x2 => ⟨.sqrt, .f32, .x2⟩
  | .sqrtF32x4 => ⟨.sqrt, .f32, .x4⟩
  | .sqrtF32x8 => ⟨.sqrt, .f32, .x8⟩
  | .sqrtF64x2 => ⟨.sqrt, .f64, .x2⟩
  | .sqrtF64x4 => ⟨.sqrt, .f64, .x4⟩
  | .sqrtF64x8 => ⟨.sqrt, .f64, .x8⟩
  | .fmaF32x2 => ⟨.fma, .f32, .x2⟩
  | .fmaF32x4 => ⟨.fma, .f32, .x4⟩
  | .fmaF32x8 => ⟨.fma, .f32, .x8⟩

/-- The operation kind in an instruction's name. -/
def Instr.kind (i : Instr) : OpKind := i.parts.kind

/-- The element type in an instruction's name. -/
def Instr.elem (i : Instr) : ElemType := i.parts.elem

/-- The lane count in an instruction's name. -/
def Instr.lanes (i : Instr) : LaneCount := i.parts.lanes

/-- N·W, the bits of a vector of the operation (R9, R70). -/
def Instr.vectorBits (i : Instr) : Nat := i.lanes.count * i.elem.width

/-- The legal operations, all 39, in the order of the opcode map (R66, R70). -/
def Instr.all : List Instr :=
  [.truncF32x2, .truncF32x4, .truncF32x8, .truncF64x2, .truncF64x4, .truncF64x8,
   .fractF32x2, .fractF32x4, .fractF32x8, .fractF64x2, .fractF64x4, .fractF64x8,
   .floorF32x2, .floorF32x4, .floorF32x8, .floorF64x2, .floorF64x4, .floorF64x8,
   .ceilF32x2, .ceilF32x4, .ceilF32x8, .ceilF64x2, .ceilF64x4, .ceilF64x8,
   .roundF32x2, .roundF32x4, .roundF32x8, .roundF64x2, .roundF64x4, .roundF64x8,
   .sqrtF32x2, .sqrtF32x4, .sqrtF32x8, .sqrtF64x2, .sqrtF64x4, .sqrtF64x8,
   .fmaF32x2, .fmaF32x4, .fmaF32x8]

end Sys2Proof
end

