-- ==== Sys2Proof/Config.lean ====
section
/-! DEFINITION. The configuration of an instance (rule R31), its defaults, and the model's uninterpreted constants. -/

namespace Sys2Proof

/-- The values of ACC_SQRT_F32 and ACC_SQRT_F64 (R11, R152). -/
inductive SqrtAcc where
  | correctlyRounded | faithful | signOnly
  deriving DecidableEq, Repr

/-- The values of ACC_FMA_F32 (R11, R181). -/
inductive FmaAcc where
  | correctlyRounded | crNormal | faithful
  deriving DecidableEq, Repr

/-- What is fixed when an instance is built, and no request can change (R31, R222). -/
structure Config where
  /-- SUPPORTED: the operations this instance answers (R10). -/
  supported : List Instr
  /-- ACC_SQRT_F32 (R11). -/
  accSqrtF32 : SqrtAcc
  /-- ACC_SQRT_F64 (R11). -/
  accSqrtF64 : SqrtAcc
  /-- ACC_FMA_F32 (R11). -/
  accFmaF32 : FmaAcc
  /-- SEED_TABLE: the seed ROM, 128 entries of 16 bits (R12, R28). -/
  seedTable : Vector (BitVec 16) 128
  deriving DecidableEq, Repr

/-- The spec's own default contents of SEED_TABLE, worked out from the formula of R163: entries 0 to 63
(exponent parity bit clear) and then 64 to 127 (set). -/
def defaultSeedEntries : List (BitVec 16) :=
  [0xb451, 0xb2f0, 0xb196, 0xb044, 0xaef9, 0xadb6, 0xac79, 0xab43, 0xaa14, 0xa8eb, 0xa7c8, 0xa6aa, 0xa592, 0xa480, 0xa373, 0xa26b] ++
  [0xa168, 0xa06a, 0x9f70, 0x9e7b, 0x9d8a, 0x9c9d, 0x9bb5, 0x9ad1, 0x99f0, 0x9913, 0x983a, 0x9765, 0x9693, 0x95c4, 0x94f8, 0x9430] ++
  [0x936b, 0x92a9, 0x91ea, 0x912e, 0x9075, 0x8fbe, 0x8f0a, 0x8e59, 0x8daa, 0x8cfe, 0x8c54, 0x8bac, 0x8b07, 0x8a64, 0x89c4, 0x8925] ++
  [0x8889, 0x87ee, 0x8756, 0x86c0, 0x862b, 0x8599, 0x8508, 0x8479, 0x83ec, 0x8361, 0x82d8, 0x8250, 0x81c9, 0x8145, 0x80c2, 0x8040] ++
  [0xff02, 0xfd0e, 0xfb25, 0xf947, 0xf773, 0xf5aa, 0xf3ea, 0xf234, 0xf087, 0xeee3, 0xed47, 0xebb3, 0xea27, 0xe8a3, 0xe727, 0xe5b2] ++
  [0xe443, 0xe2dc, 0xe17a, 0xe020, 0xdecb, 0xdd7d, 0xdc34, 0xdaf1, 0xd9b3, 0xd87b, 0xd748, 0xd61a, 0xd4f1, 0xd3cd, 0xd2ad, 0xd192] ++
  [0xd07b, 0xcf69, 0xce5b, 0xcd51, 0xcc4a, 0xcb48, 0xca4a, 0xc94f, 0xc858, 0xc764, 0xc674, 0xc587, 0xc49d, 0xc3b7, 0xc2d4, 0xc1f4] ++
  [0xc116, 0xc03c, 0xbf65, 0xbe90, 0xbdbe, 0xbcef, 0xbc23, 0xbb59, 0xba91, 0xb9cc, 0xb90a, 0xb84a, 0xb78c, 0xb6d0, 0xb617, 0xb560]

/-- The default instance: SUPPORTED is all 39 operations (R10), the accuracy parameters have the defaults
of R11, and SEED_TABLE has the spec's own default contents (R163). -/
def Config.default : Config where
  supported := Instr.all
  accSqrtF32 := .correctlyRounded
  accSqrtF64 := .signOnly
  accFmaF32 := .crNormal
  seedTable := ⟨defaultSeedEntries.toArray, rfl⟩

/-- The oracle of R13: an unconstrained 512-bit value for each index. Nothing is known of any of its
values. A lane that needs a free value takes the low bits of the value at its own index, so the draws of
different lanes and of different responses are unrelated. Log 6. -/
opaque Config.freeValue : Nat → Bus

/-- LATENCY (R225): the cycles from accepting a request to presenting its response. It may depend on OPSEL
and, by its type, on nothing else. The spec gives no value and no rule reads it. Log 15. -/
opaque Config.latency : Opsel → Nat

end Sys2Proof
end

