-- ==== Sys2Proof/WellFormed.lean ====
section
/-! DEFINITION. What is well formed: an operation-select word (rules R64, R66, R71), an instruction's
combination of fields (R66), and a configuration (R10). Every term of Instr is well formed; the checks bite
on the words and on the field combinations that stand for no operation. -/

namespace Sys2Proof

/-- The combinations of kind and element type that exist: all but binary64 fma (R3, R66, R186). -/
def fieldsWf (k : OpKind) (e : ElemType) : Bool :=
  !(k == .fma && e == .f64)

/-- An instruction stands for a combination that exists. -/
def Instr.wf (i : Instr) : Bool := fieldsWf i.kind i.elem

/-- A word that names one of the 39 legal operations, by the fields of R66: RSV is 00, LN is not 11, OP is
not 111, and OP 110 comes with FMT 0. -/
def opselWf (w : Opsel) : Bool :=
  w.extractLsb 7 6 == 0b00#2 && w.extractLsb 5 4 != 0b11#2 && w.extractLsb 2 0 != 0b111#3 &&
    !(w.extractLsb 2 0 == 0b110#3 && w.extractLsb 3 3 == 0b1#1)

/-- SUPPORTED is a set: no operation is listed twice (R10). -/
def Config.wf (g : Config) : Bool := g.supported.Nodup

end Sys2Proof
end

