-- ==== Sys2Proof/Decode.lean ====
section
/-! DEFINITION. Decoding an operation-select word by the opcode map (rules R60 to R67, R70, R71), and the
encoder, written from the field tables R61 to R63. -/

namespace Sys2Proof

/-- OPSEL[2:0], the operation kind (R60). -/
def opField (w : Opsel) : BitVec 3 := w.extractLsb 2 0

/-- OPSEL[3], the element type (R60). -/
def fmtField (w : Opsel) : BitVec 1 := w.extractLsb 3 3

/-- OPSEL[5:4], the lane count (R60). -/
def lnField (w : Opsel) : BitVec 2 := w.extractLsb 5 4

/-- OPSEL[7:6], reserved (R60, R64). -/
def rsvField (w : Opsel) : BitVec 2 := w.extractLsb 7 6

/-- Why a word is illegal: the conditions of R71, by name. Every one of them gets the same response. -/
inductive IllegalReason where
  /-- RSV is not 00 (R64). -/
  | reservedBits
  /-- LN = 11 (R63). -/
  | reservedLaneCount
  /-- OP = 111 (R61). -/
  | reservedOp
  /-- OP = 110 and FMT = 1: there is no binary64 fma (R186). -/
  | fmaBinary64
  /-- The operation is not in SUPPORTED (R10). -/
  | notSupported
  deriving DecidableEq, Repr

/-- The rows of the opcode map (R70) whose kind is trunc. -/
def truncRows : List (Opsel × Instr) :=
  [(0x00#8, .truncF32x2), (0x10#8, .truncF32x4), (0x20#8, .truncF32x8),
   (0x08#8, .truncF64x2), (0x18#8, .truncF64x4), (0x28#8, .truncF64x8)]

/-- The rows of the opcode map (R70) whose kind is fract. -/
def fractRows : List (Opsel × Instr) :=
  [(0x01#8, .fractF32x2), (0x11#8, .fractF32x4), (0x21#8, .fractF32x8),
   (0x09#8, .fractF64x2), (0x19#8, .fractF64x4), (0x29#8, .fractF64x8)]

/-- The rows of the opcode map (R70) whose kind is floor. -/
def floorRows : List (Opsel × Instr) :=
  [(0x02#8, .floorF32x2), (0x12#8, .floorF32x4), (0x22#8, .floorF32x8),
   (0x0A#8, .floorF64x2), (0x1A#8, .floorF64x4), (0x2A#8, .floorF64x8)]

/-- The rows of the opcode map (R70) whose kind is ceil. -/
def ceilRows : List (Opsel × Instr) :=
  [(0x03#8, .ceilF32x2), (0x13#8, .ceilF32x4), (0x23#8, .ceilF32x8),
   (0x0B#8, .ceilF64x2), (0x1B#8, .ceilF64x4), (0x2B#8, .ceilF64x8)]

/-- The rows of the opcode map (R70) whose kind is round. -/
def roundRows : List (Opsel × Instr) :=
  [(0x04#8, .roundF32x2), (0x14#8, .roundF32x4), (0x24#8, .roundF32x8),
   (0x0C#8, .roundF64x2), (0x1C#8, .roundF64x4), (0x2C#8, .roundF64x8)]

/-- The rows of the opcode map (R70) whose kind is sqrt. -/
def sqrtRows : List (Opsel × Instr) :=
  [(0x05#8, .sqrtF32x2), (0x15#8, .sqrtF32x4), (0x25#8, .sqrtF32x8),
   (0x0D#8, .sqrtF64x2), (0x1D#8, .sqrtF64x4), (0x2D#8, .sqrtF64x8)]

/-- The rows of the opcode map (R70) whose kind is fma. -/
def fmaRows : List (Opsel × Instr) :=
  [(0x06#8, .fmaF32x2), (0x16#8, .fmaF32x4), (0x26#8, .fmaF32x8)]

/-- The opcode map: one row per legal operation (R70). -/
def opcodeMap : List (Opsel × Instr) :=
  truncRows ++ fractRows ++ floorRows ++ ceilRows ++ roundRows ++ sqrtRows ++ fmaRows

/-- The condition of R71 that a word outside the map meets, in the order RSV, LN, OP, binary64 fma. The
order only names the reason (log 22). -/
def illegalReason (w : Opsel) : IllegalReason :=
  if rsvField w ≠ 0b00#2 then .reservedBits
  else if lnField w = 0b11#2 then .reservedLaneCount
  else if opField w = 0b111#3 then .reservedOp
  else .fmaBinary64

/-- The decoder: it looks the word up in the opcode map; no other bits take part (R67). -/
def decode (w : Opsel) : Except IllegalReason Instr :=
  match opcodeMap.lookup w with
  | some i => .ok i
  | none => .error (illegalReason w)

/-- Decoding against an instance: a word outside SUPPORTED is illegal too (R10, R67, R71). -/
def legalOperation (g : Config) (w : Opsel) : Except IllegalReason Instr :=
  match decode w with
  | .ok i => if i ∈ g.supported then .ok i else .error .notSupported
  | .error e => .error e

/-- The decoder on a word numbered as spec/opcode_table.json numbers it: a request's whole encoding is the
one 8-bit word OPSEL (R60), so a word with a bit above bit 7 is no OPSEL (log 23). -/
def decodeTableWord (nbits w : Nat) : Option Instr :=
  if w % 2 ^ nbits < 256 then
    match decode (BitVec.ofNat 8 (w % 2 ^ nbits)) with
    | .ok i => some i
    | .error _ => none
  else none

/-- OP values (R61). -/
def OpKind.code : OpKind → BitVec 3
  | .trunc => 0b000#3
  | .fract => 0b001#3
  | .floor => 0b010#3
  | .ceil => 0b011#3
  | .round => 0b100#3
  | .sqrt => 0b101#3
  | .fma => 0b110#3

/-- FMT values (R62). -/
def ElemType.code : ElemType → BitVec 1
  | .f32 => 0b0#1
  | .f64 => 0b1#1

/-- LN values (R63). -/
def LaneCount.code : LaneCount → BitVec 2
  | .x2 => 0b00#2
  | .x4 => 0b01#2
  | .x8 => 0b10#2

/-- The encoder: RSV, LN, FMT and OP, most significant first, with RSV = 00 (R60, R64). -/
def encode (i : Instr) : Opsel :=
  0b00#2 ++ i.lanes.code ++ i.elem.code ++ i.kind.code

end Sys2Proof
end

