-- ==== Sys2Proof/Machine/State.lean ====
section
/-! DEFINITION. The state of the unit as plain data, its reasons to stop, and the state after reset
(10_state.md R24 to R31, 60_exceptions.md R202, R206, 70_reset_and_hazards.md R220, R221). -/

namespace Sys2Proof.Machine

/-- What a request carries (R24). -/
structure Request where
  /-- OPSEL, the operation-select word. -/
  opsel : Opsel
  /-- A, the first operand vector. -/
  a : Bus
  /-- B, the second operand vector. -/
  b : Bus
  /-- C, the third operand vector. -/
  c : Bus
  deriving DecidableEq, Repr

/-- The model faults of the spec: there is one (R202). It does not stop the unit. -/
inductive ModelFault where
  /-- IllegalOpsel(opsel): the request's OPSEL names no operation in SUPPORTED. -/
  | illegalOpsel (opsel : Opsel)
  deriving DecidableEq, Repr

/-- Everything the spec gives the unit, the configuration of the instance, and the model's own count of the
free values drawn. -/
structure State where
  /-- The configuration of the instance (R31); no step changes it (log 2). -/
  cfg : Config
  /-- The requests accepted and not yet answered, oldest first (R30 "response outstanding", R227). -/
  requests : List Request
  /-- The OPSEL field of the request port: the request being answered, then the last one answered (R24; log 26). -/
  opsel : Opsel
  /-- Operand bus A of the request port (R24). -/
  a : Bus
  /-- Operand bus B of the request port (R24). -/
  b : Bus
  /-- Operand bus C of the request port (R24). -/
  c : Bus
  /-- The result output R of the response port (R25). -/
  r : Bus
  /-- The output ILLEGAL of the response port (R25). -/
  illegal : Bool
  /-- Whether R and ILLEGAL carry the response the last step presented (R30, R221; log 11). -/
  presented : Bool
  /-- The model fault raised with the last step's response; none is cause code 0 (R202). -/
  raised : Option ModelFault
  /-- The unit has reached a panic and gives no further responses (R206). -/
  stuck : Bool
  /-- The host asserts reset (R220). -/
  resetLine : Bool
  /-- The model's own: how many free values have been drawn (R13; log 6). -/
  draws : Nat
  deriving DecidableEq, Repr

/-- Why the unit stops. -/
inductive Fault where
  /-- R206: raised by the step of a unit that is stuck while reset is not asserted: it gives no further
  responses until reset. No rule of the spec reaches it and no step of the model sets it. Safe: the model
  stops where the hardware answers nothing. -/
  | stuck
  deriving DecidableEq, Repr

/-- Why an instruction has no meaning. -/
inductive Refusal where
  /-- An instruction the model gives no meaning. No arm of this model answers with it. Safe. -/
  | notModelled (mnemonic : String)
  deriving DecidableEq, Repr

/-- What a step or an instruction's meaning answers. -/
abbrev Out := Host.Outcome State Fault Refusal

/-- Right after reset: nothing outstanding, no response presented, not stuck, the default instance (R10, R11,
R220, R221). The request port and the outputs, which the spec leaves unspecified, are zero (DESIGN CHOICE,
logs 9 and 10), and no free value has been drawn (log 6). -/
def State.reset : State where
  cfg := Config.default
  requests := []
  opsel := 0
  a := 0
  b := 0
  c := 0
  r := 0
  illegal := false
  presented := false
  raised := none
  stuck := false
  resetLine := false
  draws := 0

end Sys2Proof.Machine
end

