-- ==== Sys2Proof/Machine/Flags.lean ====
section
/-! DEFINITION. The unit has no flags, no condition codes and no IEEE exception flags (10_state.md R22). What it
reports beside R is the bit ILLEGAL (R25) and, as the model's record, the fault raised and its cause code (R202). -/

namespace Sys2Proof.Machine

/-- ILLEGAL for a word: 1 if and only if it names no operation in SUPPORTED (R25). -/
def illegalBit (g : Config) (w : Opsel) : Bool :=
  match legalOperation g w with
  | .ok _ => false
  | .error _ => true

/-- The cause code: 1 for IllegalOpsel, and 0 means no fault (R202). -/
def causeCode : Option ModelFault → Nat
  | some (.illegalOpsel _) => 1
  | none => 0

end Sys2Proof.Machine
end

