-- ==== Sys2Proof/Machine/Operands.lean ====
section
/-! DEFINITION. The lanes of a bus: reading an operand's lanes and packing a result's (10_state.md R26, R27,
40_bit_reinterpret.md R95). A request has no other operand form (R65). -/

namespace Sys2Proof.Machine

/-- `lane(V, i) = V[W*i + W - 1 : W*i]`: lane 0 is least significant (R26). -/
def lane (w : Nat) (v : Bus) (i : Nat) : BitVec w := v.extractLsb' (w * i) w

/-- The bus whose lanes 0 to n - 1 are f's values and whose other bits are 0 (R27). -/
def packLanes (w : Nat) (f : Nat → BitVec w) : Nat → Bus
  | 0 => 0
  | n + 1 => packLanes w f n ||| ((f n).setWidth 512 <<< (w * n))

end Sys2Proof.Machine
end

