-- ==== Sys2Proof/Machine/Ops.lean ====
section
/-! DEFINITION. The named operations on the state: accepting and taking a request, answering it, the illegal
request, idling, reset, and the application of a lane function to every lane (R24 to R27, R95, R202, R220, R227). -/

namespace Sys2Proof.Machine

/-- The host places a request: the unit accepts it behind those not yet answered (R227). -/
def State.accept (q : Request) (s : State) : State := { s with requests := s.requests ++ [q] }

/-- The oldest request goes onto the request port, to be answered (R24, R227), and stands there until the next
one is taken (log 26). -/
def State.takeRequest (q : Request) (rest : List Request) (s : State) : State :=
  { s with requests := rest, opsel := q.opsel, a := q.a, b := q.b, c := q.c }

/-- The response to a legal request: R, with ILLEGAL = 0; n free values have been drawn (R25, R95). The request
port keeps the request answered (DESIGN CHOICE, log 26). -/
def State.answer (result : Bus) (n : Nat) (s : State) : State :=
  { s with r := result, illegal := false, presented := true, raised := none, draws := s.draws + n }

/-- `raise IllegalOpsel(OPSEL)` (R202): the response has ILLEGAL = 1 and R any value, the fault records the
word, and nothing else changes. The unit takes the next request normally (R205). The request port keeps the
request answered (DESIGN CHOICE, log 26). -/
def State.takeIllegalOpsel (s : State) : State :=
  { s with r := Config.freeValue s.draws, illegal := true, presented := true,
           raised := some (.illegalOpsel s.opsel), draws := s.draws + 1 }

/-- Nothing to answer: no response is presented (R212, R221; log 11). The request port keeps the last request's
OPSEL, A, B and C (DESIGN CHOICE, log 26). -/
def State.idle (s : State) : State := { s with presented := false, raised := none }

/-- Reset (R220, R221): the requests in flight get no response, a stuck unit is cleared, no response is
presented and the outputs are unspecified; the configuration stays (R222). The host's reset is taken as
released after it (log 14). What stands on the request port then, the spec does not say: the last request's
OPSEL, A, B and C are kept (DESIGN CHOICE, log 26). -/
def State.takeReset (s : State) : State :=
  { s with requests := [], r := Config.freeValue s.draws, illegal := (Config.freeValue (s.draws + 1)).getLsbD 0,
           presented := false, raised := none, stuck := false, resetLine := false, draws := s.draws + 2 }

/-- The free value of lane i of the response being made: each lane's is its own (R13, R95). -/
def State.laneDraw (s : State) (w i : Nat) : BitVec w := (Config.freeValue (s.draws + i)).setWidth w

/-- The result of a unary operation on n lanes: its lane function, given the lane's free value and lane i of
A; B and C are ignored (R65, R95). -/
def unaryResult (w n : Nat) (op : BitVec w → BitVec w → BitVec w) (s : State) : Bus :=
  packLanes w (fun i => op (s.laneDraw w i) (lane w s.a i)) n

/-- A unary operation on n lanes of w bits (R95). -/
def answerUnary (w n : Nat) (op : BitVec w → BitVec w → BitVec w) (s : State) : Out :=
  .next (s.answer (unaryResult w n op s) n)

/-- The result of a ternary operation on n lanes: lane i of A, B and C (R65, R95). -/
def ternaryResult (w n : Nat) (op : BitVec w → BitVec w → BitVec w → BitVec w → BitVec w) (s : State) : Bus :=
  packLanes w (fun i => op (s.laneDraw w i) (lane w s.a i) (lane w s.b i) (lane w s.c i)) n

/-- A ternary operation on n lanes of w bits (R95). -/
def answerTernary (w n : Nat) (op : BitVec w → BitVec w → BitVec w → BitVec w → BitVec w) (s : State) : Out :=
  .next (s.answer (ternaryResult w n op s) n)

/-- `SeedRom[i]`: entry i of SEED_TABLE, addressed by 7 bits (R16, R41). -/
def seedRom (table : Vector (BitVec 16) 128) (i : BitVec 7) : BitVec 16 := table.get i.toFin

end Sys2Proof.Machine
end

