-- ==== Sys2Proof/Machine/Fma.lean ====
section
/-! DEFINITION. Fused multiply-add, binary32 only: the exact value, the accuracy sets, the special cases, and one
meaning per operation (43_fma.md R180 to R182). -/

namespace Sys2Proof.Machine

/-- `(-1)^s * M * 2^n` as an integer. -/
def signedScaled (s : Bool) (M n : Nat) : Int := if s then -((M * 2 ^ n : Nat) : Int) else ((M * 2 ^ n : Nat) : Int)

/-- The sum of two exact values as an integer times `2^k0`, with k0 the smaller of the two exponents (R182). -/
def exactSum (x y : Exact) : Exact :=
  let k0 := min x.k y.k
  let n := signedScaled x.s x.M (x.k - k0).toNat + signedScaled y.s y.M (y.k - k0).toNat
  ⟨decide (n < 0), n.natAbs, k0⟩

/-- The product of two exact values (R182). -/
def exactProduct (x y : Exact) : Exact := ⟨xor x.s y.s, x.M * y.M, x.k + y.k⟩

/-- `value(a) * value(b) + value(c)` of finite lanes, exactly; M = 0 when it is zero (R182). -/
def fmaExact (F : Fmt) {w : Nat} (a b c : BitVec w) : Exact :=
  exactSum (exactProduct (decodeLane F a) (decodeLane F b)) (decodeLane F c)

/-- `|v| >= 2^(1 - bias)`, the smallest normal (R181). -/
def atLeastNormal (F : Fmt) (v : Exact) : Bool := decide (1 - (F.bias : Int) ≤ binade v.M v.k)

/-- A member of the faithful set, chosen by the free value d (R90, R181). -/
def faithfulChoice (F : Fmt) {w : Nat} (d : BitVec w) (v : Exact) : BitVec w :=
  choose d (withSign v.s (faithfulDown F v)) (withSign v.s (faithfulUp F v))

/-- A member of `FmaSet(v, acc)`, chosen by the free value d (R181). -/
def fmaChoice (F : Fmt) (acc : FmaAcc) {w : Nat} (d : BitVec w) (v : Exact) : BitVec w :=
  match acc with
  | .correctlyRounded => rne F w v
  | .crNormal => if atLeastNormal F v || representable F v then rne F w v else faithfulChoice F d v
  | .faithful => faithfulChoice F d v

/-- An fma lane: the special cases in their order, then a member of the set (R180). -/
def fma (F : Fmt) (acc : FmaAcc) {w : Nat} (d a b c : BitVec w) : BitVec w :=
  let sp := xor (sign a) (sign b)
  if isNaN F a = true ∨ isNaN F b = true ∨ isNaN F c = true then anyNaN F d
  else if (isInf F a = true ∧ isZero b = true) ∨ (isZero a = true ∧ isInf F b = true) then anyNaN F d
  else if isInf F a = true ∨ isInf F b = true then
    if isInf F c = true ∧ sign c ≠ sp then anyNaN F d else withSign sp (posInf F w).toNat
  else if isInf F c = true then c
  else if (fmaExact F a b c).M = 0 then
    if (isZero a = true ∨ isZero b = true) ∧ isZero c = true then
      if sp = true ∧ sign c = true then signMask w else 0#w
    else 0#w
  else fmaChoice F acc d (fmaExact F a b c)

/-- round_fma_f32x2 (R180). -/
def execFmaF32x2 (s : State) : Out :=
  answerTernary 32 2 (fun d a b c => fma binary32 s.cfg.accFmaF32 d a b c) s

/-- round_fma_f32x4 (R180). -/
def execFmaF32x4 (s : State) : Out :=
  answerTernary 32 4 (fun d a b c => fma binary32 s.cfg.accFmaF32 d a b c) s

/-- round_fma_f32x8 (R180). -/
def execFmaF32x8 (s : State) : Out :=
  answerTernary 32 8 (fun d a b c => fma binary32 s.cfg.accFmaF32 d a b c) s

end Sys2Proof.Machine
end

