-- ==== Sys2Proof/Machine/Arith.lean ====
section
/-! DEFINITION. IEEE-754 operations rounded to nearest even, as the spec's definitions and datapaths use them:
fract's difference (R103, R104), the magic-number sum (R111), the square root's rescaling and tiny addition (R156,
R162), and the binary64 steps of fma (R183 to R185). d is the free value of a NaN result. -/

namespace Sys2Proof.Machine

/-- Negation: the sign bit flipped. -/
def fpNeg {w : Nat} (x : BitVec w) : BitVec w := x ^^^ signMask w

/-- The IEEE-754 sum: NaN operands and Inf - Inf give NaN, an exact zero sum is +0 unless both operands are
-0, everything else is the exact sum rounded once (R89, R103). -/
def fpAdd (F : Fmt) {w : Nat} (d x y : BitVec w) : BitVec w :=
  if isNaN F x = true ∨ isNaN F y = true then anyNaN F d
  else if isInf F x = true then
    if isInf F y = true ∧ sign x ≠ sign y then anyNaN F d else x
  else if isInf F y = true then y
  else
    let v := exactSum (decodeLane F x) (decodeLane F y)
    if v.M = 0 then
      if isZero x = true ∧ isZero y = true ∧ sign x = true ∧ sign y = true then signMask w else 0#w
    else rne F w v

/-- The IEEE-754 difference (R103). -/
def fpSub (F : Fmt) {w : Nat} (d x y : BitVec w) : BitVec w :=
  if isNaN F y = true then anyNaN F d else fpAdd F d x (fpNeg y)

/-- The IEEE-754 product: NaN operands and Inf * 0 give NaN; the sign is the operands' signs combined. -/
def fpMul (F : Fmt) {w : Nat} (d x y : BitVec w) : BitVec w :=
  let sp := xor (sign x) (sign y)
  if isNaN F x = true ∨ isNaN F y = true then anyNaN F d
  else if (isInf F x = true ∧ isZero y = true) ∨ (isZero x = true ∧ isInf F y = true) then anyNaN F d
  else if isInf F x = true ∨ isInf F y = true then withSign sp (posInf F w).toNat
  else if isZero x = true ∨ isZero y = true then withSign sp 0
  else rne F w (exactProduct (decodeLane F x) (decodeLane F y))

/-- x as an integer that orders the lanes that are not NaN; +0 and -0 are both 0. -/
def orderKey {w : Nat} (x : BitVec w) : Int :=
  if sign x then -((magnitude x).toNat : Int) else ((magnitude x).toNat : Int)

/-- IEEE-754 equality: false for a NaN, and +0 equals -0. -/
def fpEq (F : Fmt) {w : Nat} (x y : BitVec w) : Bool :=
  !isNaN F x && !isNaN F y && orderKey x == orderKey y

/-- IEEE-754 less than: false for a NaN. -/
def fpLt (F : Fmt) {w : Nat} (x y : BitVec w) : Bool :=
  !isNaN F x && !isNaN F y && decide (orderKey x < orderKey y)

/-- IEEE-754 conversion from format F to format G, rounding to nearest even: the class is kept, a NaN is a
draw, a finite value is rounded (R184). -/
def fpConvert (F G : Fmt) {w : Nat} (v : Nat) (d : BitVec v) (x : BitVec w) : BitVec v :=
  if isNaN F x = true then anyNaN G d
  else if isInf F x = true then withSign (sign x) (posInf G v).toNat
  else if isZero x = true then withSign (sign x) 0
  else rne G v (decodeLane F x)

end Sys2Proof.Machine
end

