-- ==== Sys2Proof/Machine/Rounding.lean ====
section
/-! DEFINITION. The rounding family: trunc, fract, floor, ceil and round (41_rounding.md R100 to R110), the lane
functions once for both formats and one meaning per operation. -/

namespace Sys2Proof.Machine

/-- The exponent regions of R100. -/
inductive Region where
  | huge | middle | small
  deriving DecidableEq, Repr

/-- The region of a lane: huge when e >= p, small when e < 0, otherwise middle (R100). -/
def region (F : Fmt) {w : Nat} (x : BitVec w) : Region :=
  if (F.p : Int) ≤ unbiasedExp F x then .huge
  else if unbiasedExp F x < 0 then .small
  else .middle

/-- `p - e`: how many low mantissa bits carry the fraction, in the middle region (R100). -/
def fracBits (F : Fmt) {w : Nat} (x : BitVec w) : Nat := ((F.p : Int) - unbiasedExp F x).toNat

/-- `m = (1 << (p - e)) - 1`, the mask of the fractional bits (R100). -/
def fracMask (F : Fmt) {w : Nat} (x : BitVec w) : BitVec w := BitVec.ofNat w (2 ^ fracBits F x - 1)

/-- trunc: toward zero (R101, R102). -/
def trunc (F : Fmt) {w : Nat} (x : BitVec w) : BitVec w :=
  match region F x with
  | .huge => x
  | .small => x &&& signMask w
  | .middle => x &&& ~~~ fracMask F x

/-- fract: `x - trunc(x)` in closed form; d is the lane's free value, used when the result is a NaN draw
(R103, R104). -/
def fract (F : Fmt) {w : Nat} (d x : BitVec w) : BitVec w :=
  if expField F x = F.expOnes then anyNaN F d
  else if magnitude x = 0 then 0#w
  else match region F x with
    | .huge => 0#w
    | .small => x
    | .middle =>
      let f := x &&& fracMask F x
      if f = 0 then 0#w else rne F w ⟨sign x, f.toNat, unbiasedExp F x - (F.p : Int)⟩

/-- floor: toward minus infinity (R105, R106). -/
def floor (F : Fmt) {w : Nat} (x : BitVec w) : BitVec w :=
  match region F x with
  | .huge => x
  | .small =>
    if sign x = false then 0#w
    else if magnitude x = 0 then signMask w
    else negOne F w
  | .middle =>
    let m := fracMask F x
    if sign x = true ∧ x &&& m ≠ 0 then (x + m) &&& ~~~ m else x &&& ~~~ m

/-- ceil: toward plus infinity (R107, R108). -/
def ceil (F : Fmt) {w : Nat} (x : BitVec w) : BitVec w :=
  match region F x with
  | .huge => x
  | .small =>
    if sign x = true then signMask w
    else if x = 0 then 0#w
    else posOne F w
  | .middle =>
    let m := fracMask F x
    if sign x = false ∧ x &&& m ≠ 0 then (x + m) &&& ~~~ m else x &&& ~~~ m

/-- round: to nearest, ties to even, with thresholds on the biased exponent (R109, R110; C1). -/
def roundEven (F : Fmt) {w : Nat} (x : BitVec w) : BitVec w :=
  let E := expField F x
  if E ≥ F.bias + F.p then x
  else if E < F.bias - 1 then x &&& signMask w
  else if E = F.bias - 1 then
    if frac F x = 0 then x &&& signMask w else (x &&& signMask w) ||| posOne F w
  else
    let s := F.bias + F.p - E
    let m := BitVec.ofNat w (2 ^ s - 1)
    let half := 2 ^ (s - 1)
    let f := (x &&& m).toNat
    let t := x &&& ~~~ m
    let lsb := (((frac F x).toNat ||| 2 ^ F.p) >>> s) % 2
    if f > half ∨ (f = half ∧ lsb = 1) then t + BitVec.ofNat w (2 ^ s) else t

/-- round_trunc_f32x2 (R101). -/
def execTruncF32x2 (s : State) : Out := answerUnary 32 2 (fun _ x => trunc binary32 x) s

/-- round_trunc_f32x4 (R101). -/
def execTruncF32x4 (s : State) : Out := answerUnary 32 4 (fun _ x => trunc binary32 x) s

/-- round_trunc_f32x8 (R101). -/
def execTruncF32x8 (s : State) : Out := answerUnary 32 8 (fun _ x => trunc binary32 x) s

/-- round_trunc_f64x2 (R102). -/
def execTruncF64x2 (s : State) : Out := answerUnary 64 2 (fun _ x => trunc binary64 x) s

/-- round_trunc_f64x4 (R102). -/
def execTruncF64x4 (s : State) : Out := answerUnary 64 4 (fun _ x => trunc binary64 x) s

/-- round_trunc_f64x8 (R102). -/
def execTruncF64x8 (s : State) : Out := answerUnary 64 8 (fun _ x => trunc binary64 x) s

/-- round_fract_f32x2 (R103). -/
def execFractF32x2 (s : State) : Out := answerUnary 32 2 (fun d x => fract binary32 d x) s

/-- round_fract_f32x4 (R103). -/
def execFractF32x4 (s : State) : Out := answerUnary 32 4 (fun d x => fract binary32 d x) s

/-- round_fract_f32x8 (R103). -/
def execFractF32x8 (s : State) : Out := answerUnary 32 8 (fun d x => fract binary32 d x) s

/-- round_fract_f64x2 (R104). -/
def execFractF64x2 (s : State) : Out := answerUnary 64 2 (fun d x => fract binary64 d x) s

/-- round_fract_f64x4 (R104). -/
def execFractF64x4 (s : State) : Out := answerUnary 64 4 (fun d x => fract binary64 d x) s

/-- round_fract_f64x8 (R104). -/
def execFractF64x8 (s : State) : Out := answerUnary 64 8 (fun d x => fract binary64 d x) s

/-- round_floor_f32x2 (R105). -/
def execFloorF32x2 (s : State) : Out := answerUnary 32 2 (fun _ x => floor binary32 x) s

/-- round_floor_f32x4 (R105). -/
def execFloorF32x4 (s : State) : Out := answerUnary 32 4 (fun _ x => floor binary32 x) s

/-- round_floor_f32x8 (R105). -/
def execFloorF32x8 (s : State) : Out := answerUnary 32 8 (fun _ x => floor binary32 x) s

/-- round_floor_f64x2 (R106). -/
def execFloorF64x2 (s : State) : Out := answerUnary 64 2 (fun _ x => floor binary64 x) s

/-- round_floor_f64x4 (R106). -/
def execFloorF64x4 (s : State) : Out := answerUnary 64 4 (fun _ x => floor binary64 x) s

/-- round_floor_f64x8 (R106). -/
def execFloorF64x8 (s : State) : Out := answerUnary 64 8 (fun _ x => floor binary64 x) s

/-- round_ceil_f32x2 (R107). -/
def execCeilF32x2 (s : State) : Out := answerUnary 32 2 (fun _ x => ceil binary32 x) s

/-- round_ceil_f32x4 (R107). -/
def execCeilF32x4 (s : State) : Out := answerUnary 32 4 (fun _ x => ceil binary32 x) s

/-- round_ceil_f32x8 (R107). -/
def execCeilF32x8 (s : State) : Out := answerUnary 32 8 (fun _ x => ceil binary32 x) s

/-- round_ceil_f64x2 (R108). -/
def execCeilF64x2 (s : State) : Out := answerUnary 64 2 (fun _ x => ceil binary64 x) s

/-- round_ceil_f64x4 (R108). -/
def execCeilF64x4 (s : State) : Out := answerUnary 64 4 (fun _ x => ceil binary64 x) s

/-- round_ceil_f64x8 (R108). -/
def execCeilF64x8 (s : State) : Out := answerUnary 64 8 (fun _ x => ceil binary64 x) s

/-- round_round_f32x2 (R109). -/
def execRoundF32x2 (s : State) : Out := answerUnary 32 2 (fun _ x => roundEven binary32 x) s

/-- round_round_f32x4 (R109). -/
def execRoundF32x4 (s : State) : Out := answerUnary 32 4 (fun _ x => roundEven binary32 x) s

/-- round_round_f32x8 (R109). -/
def execRoundF32x8 (s : State) : Out := answerUnary 32 8 (fun _ x => roundEven binary32 x) s

/-- round_round_f64x2 (R110). -/
def execRoundF64x2 (s : State) : Out := answerUnary 64 2 (fun _ x => roundEven binary64 x) s

/-- round_round_f64x4 (R110). -/
def execRoundF64x4 (s : State) : Out := answerUnary 64 4 (fun _ x => roundEven binary64 x) s

/-- round_round_f64x8 (R110). -/
def execRoundF64x8 (s : State) : Out := answerUnary 64 8 (fun _ x => roundEven binary64 x) s

end Sys2Proof.Machine
end

