-- ==== Sys2Proof/Machine/Sqrt.lean ====
section
/-! DEFINITION. Square root: the special cases, the exact integer algorithm, the accuracy sets, and one meaning per
operation (42_sqrt.md R150 to R155). -/

namespace Sys2Proof.Machine

/-- M and k with k made even: when k is odd, M is doubled and k lowered (R155). -/
def evenExact (v : Exact) : Exact := if v.k % 2 = 1 then ⟨v.s, v.M <<< 1, v.k - 1⟩ else v

/-- `q = floor((2p + 2 - L) / 2)`: M << 2q has 2p+1 or 2p+2 bits (R155). -/
def sqrtScale (F : Fmt) (M : Nat) : Nat := (2 * F.p + 2 - bitLength M) / 2

/-- `S = floor(sqrt(M << 2q))`, with p + 1 bits (R155). -/
def sqrtRoot (F : Fmt) (M : Nat) : Nat := isqrt (M <<< (2 * sqrtScale F M)) (F.p + 1) 0

/-- `rem = N - S*S` (R155). -/
def sqrtRem (F : Fmt) (M : Nat) : Nat := M <<< (2 * sqrtScale F M) - sqrtRoot F M * sqrtRoot F M

/-- `Eres = k/2 - q + p + bias`, the biased exponent of the root (R155). -/
def sqrtExp (F : Fmt) (v : Exact) : Nat :=
  (v.k / 2 - (sqrtScale F v.M : Int) + (F.p : Int) + (F.bias : Int)).toNat

/-- The pattern of significand y in the root's binade: `((Eres - 1) << p) + y` (R155). -/
def sqrtPattern (F : Fmt) (w : Nat) (v : Exact) (y : Nat) : BitVec w :=
  BitVec.ofNat w ((sqrtExp F v - 1) * 2 ^ F.p + y)

/-- `SQRT_CR_W(x)`: the correctly rounded root of a positive finite nonzero lane (R155). -/
def sqrtCR (F : Fmt) {w : Nat} (x : BitVec w) : BitVec w :=
  let v := evenExact (decodeLane F x)
  sqrtPattern F w v (sqrtRoot F v.M + if sqrtRem F v.M > sqrtRoot F v.M then 1 else 0)

/-- The lower faithful result: the root rounded down (R90, R152). -/
def sqrtDown (F : Fmt) {w : Nat} (x : BitVec w) : BitVec w :=
  let v := evenExact (decodeLane F x)
  sqrtPattern F w v (sqrtRoot F v.M)

/-- The upper faithful result: the next pattern, unless the root is exact (R90, R152). -/
def sqrtUp (F : Fmt) {w : Nat} (x : BitVec w) : BitVec w :=
  let v := evenExact (decodeLane F x)
  sqrtPattern F w v (sqrtRoot F v.M + if sqrtRem F v.M = 0 then 0 else 1)

/-- A member of `SqrtSet_W(x, acc)`, chosen by the free value d (R152). -/
def sqrtChoice (F : Fmt) (acc : SqrtAcc) {w : Nat} (d x : BitVec w) : BitVec w :=
  match acc with
  | .correctlyRounded => sqrtCR F x
  | .faithful => choose d (sqrtDown F x) (sqrtUp F x)
  | .signOnly => magnitude d

/-- A square root lane: the special cases in their order, then a member of the set (R150, R151, R154). -/
def sqrt (F : Fmt) (acc : SqrtAcc) {w : Nat} (d x : BitVec w) : BitVec w :=
  if x = posInf F w ∨ magnitude x = 0 then x
  else if isNaN F x = true ∨ sign x = true then anyNaN F d
  else sqrtChoice F acc d x

/-- round_sqrt_f32x2 (R151). -/
def execSqrtF32x2 (s : State) : Out :=
  answerUnary 32 2 (fun d x => sqrt binary32 s.cfg.accSqrtF32 d x) s

/-- round_sqrt_f32x4 (R151). -/
def execSqrtF32x4 (s : State) : Out :=
  answerUnary 32 4 (fun d x => sqrt binary32 s.cfg.accSqrtF32 d x) s

/-- round_sqrt_f32x8 (R151). -/
def execSqrtF32x8 (s : State) : Out :=
  answerUnary 32 8 (fun d x => sqrt binary32 s.cfg.accSqrtF32 d x) s

/-- round_sqrt_f64x2 (R154). -/
def execSqrtF64x2 (s : State) : Out :=
  answerUnary 64 2 (fun d x => sqrt binary64 s.cfg.accSqrtF64 d x) s

/-- round_sqrt_f64x4 (R154). -/
def execSqrtF64x4 (s : State) : Out :=
  answerUnary 64 4 (fun d x => sqrt binary64 s.cfg.accSqrtF64 d x) s

/-- round_sqrt_f64x8 (R154). -/
def execSqrtF64x8 (s : State) : Out :=
  answerUnary 64 8 (fun d x => sqrt binary64 s.cfg.accSqrtF64 d x) s

end Sys2Proof.Machine
end

