-- ==== Sys2Proof/Machine/Datapath.lean ====
section
/-! DEFINITION. The internal datapaths the spec records beside the result rules: fract as a difference (R103, R113),
the magic-number round (R111), the binary32 square root datapath (R156 to R162) and the fma datapath (R183 to
R185). No meaning calls them: results are fixed by the result rules (log 18). -/

namespace Sys2Proof.Machine

/-- fract by its definition, `x - trunc(x)`, the trunc computed first (R103, R104, R113). -/
def fractDifference (F : Fmt) {w : Nat} (d x : BitVec w) : BitVec w := fpSub F d x (trunc F x)

/-- `(|x| + 2^p) - 2^p` in the lane's own format, with the sign of x put back (R111). -/
def magicRound (F : Fmt) {w : Nat} (d x : BitVec w) : BitVec w :=
  (x &&& signMask w) ||| fpSub F d (fpAdd F d (magnitude x) (magicNumber F w)) (magicNumber F w)

/-- round by the magic number: the pass-through and signed-zero regions are tested before the addition (R111). -/
def roundByMagic (F : Fmt) {w : Nat} (d x : BitVec w) : BitVec w :=
  if expField F x ≥ F.bias + F.p then x
  else if expField F x < F.bias - 1 then x &&& signMask w
  else magicRound F d x

/-- Step a: a subnormal is multiplied by 2^23 and 23 is taken off the exponent field, modulo 2^32 (R156). -/
def sqrtRescale (x : BitVec 32) : BitVec 32 :=
  if expField binary32 x = 0 then fpMul binary32 0 x 0x4B000000 - 0x0B800000 else x

/-- Step b: the lowest bit of the adjusted exponent field (R157). -/
def sqrtEven (ix : BitVec 32) : Bool := ix.getLsbD 23

/-- Step c: the fixed-point mantissa, scaled 2^30 (R158). -/
def sqrtMantissa (ix : BitVec 32) : BitVec 32 :=
  if sqrtEven ix then (ix <<< 7) &&& 0x7FFFFFFF else (ix <<< 8) ||| 0x80000000

/-- Step c: the result exponent field, in place (R158). The adjusted field may be negative as an integer (R156), so
the halving keeps the top bit; the final mask drops it either way. -/
def sqrtResultExp (ix : BitVec 32) : BitVec 32 := ((ix.sshiftRight 1) + (0x3F800000 >>> 1)) &&& 0x7F800000

/-- Step d: the seed index, bits 23 to 17 of the adjusted pattern (R159; log 17). -/
def seedIndex (ix : BitVec 32) : BitVec 7 := BitVec.ofNat 7 ((ix.toNat >>> 17) % 128)

/-- Step d: the estimate of the reciprocal root (R159). -/
def sqrtSeed (table : Vector (BitVec 16) 128) (ix : BitVec 32) : BitVec 32 :=
  (seedRom table (seedIndex ix)).setWidth 32 <<< 16

/-- Step e: two Newton-Raphson steps; the root in units of 2^-23, at most 1 too small (R160). -/
def sqrtNewton (m r : BitVec 32) : BitVec 32 :=
  let three : BitVec 32 := 0xC0000000
  let s := mul32 m r
  let u := three - mul32 s r
  let r' := mul32 r u <<< 1
  let s' := mul32 s u <<< 1
  let u' := three - mul32 s' r'
  (mul32 s' u' - 1) >>> 6

/-- Step f: the residual d1 of the root s (R161). -/
def sqrtD1 (m s : BitVec 32) : BitVec 32 := s - ((m <<< 16) - s * s)

/-- Step f: the residual d2 of the root s (R161). -/
def sqrtD2 (m s : BitVec 32) : BitVec 32 := sqrtD1 m s + s + 1

/-- Step f: the root, raised by one when it is above s + 1/2 (R161). -/
def sqrtCorrect (m s : BitVec 32) : BitVec 32 := s + (sqrtD1 m s >>> 31)

/-- Step f: the tiny term (R161). -/
def sqrtTiny (m s : BitVec 32) : BitVec 32 :=
  (if sqrtD2 m s = 0 then 0 else 0x01000000) ||| ((sqrtD1 m s ^^^ sqrtD2 m s) &&& 0x80000000)

/-- Step g: the pattern before the tiny addition (R162). -/
def sqrtAssemble (ix s : BitVec 32) : BitVec 32 := (s &&& 0x007FFFFF) ||| sqrtResultExp ix

/-- The binary32 square root datapath on a positive finite nonzero lane, steps a to g (R156 to R162). -/
def sqrtDatapath (table : Vector (BitVec 16) 128) (x : BitVec 32) : BitVec 32 :=
  let ix := sqrtRescale x
  let m := sqrtMantissa ix
  let s := sqrtNewton m (sqrtSeed table ix)
  fpAdd binary32 0 (sqrtAssemble ix (sqrtCorrect m s)) (sqrtTiny m s)

/-- The binary64 value of a binary32 lane. -/
def widen (x : BitVec 32) : BitVec 64 := fpConvert binary32 binary64 64 0 x

/-- `narrow`: binary64 to binary32, to nearest even; a NaN is the draw d (R184). -/
def narrow (d : BitVec 32) (x : BitVec 64) : BitVec 32 := fpConvert binary64 binary32 32 d x

/-- `xy = f64(a * b)`, exact (R183). -/
def fmaProduct (a b : BitVec 32) : BitVec 64 := fpMul binary64 0 (widen a) (widen b)

/-- `result = f64(xy + c)` (R183). -/
def fmaWideSum (a b c : BitVec 32) : BitVec 64 := fpAdd binary64 0 (fmaProduct a b) (widen c)

/-- The halfway test on the 29 bits that narrowing discards (R183). -/
def fmaHalfway (u : BitVec 64) : Bool := u &&& 0x1FFFFFFF == 0x10000000

/-- The fast-path test of R184. -/
def fmaFast (xy c u : BitVec 64) : Bool :=
  !fmaHalfway u || expField binary64 u == 0x7FF ||
    (fpEq binary64 (fpSub binary64 0 u xy) c && fpEq binary64 (fpSub binary64 0 u c) xy)

/-- The exact rounding error by one of the two formulas (R185). -/
def fmaErr (xy c u : BitVec 64) : BitVec 64 :=
  if sign u == fpLt binary64 xy c then fpAdd binary64 0 (fpSub binary64 0 xy u) c
  else fpAdd binary64 0 (fpSub binary64 0 c u) xy

/-- The one-unit adjustment of the binary64 result (R185). -/
def fmaAdjust (xy c u : BitVec 64) : BitVec 64 :=
  if sign u == fpLt binary64 (fmaErr xy c u) 0 then u + 1 else u - 1

/-- The fma datapath, steps 1 to 5 (R183 to R185). -/
def fmaDatapath (d a b c : BitVec 32) : BitVec 32 :=
  let xy := fmaProduct a b
  let u := fmaWideSum a b c
  if fmaFast xy (widen c) u then narrow d u else narrow d (fmaAdjust xy (widen c) u)

end Sys2Proof.Machine
end

