-- ==== Sys2Proof/Machine/Dispatch.lean ====
section
/-! DEFINITION. One arm per operation: what each of the 39 does with the request on the port (R66, R95). -/

namespace Sys2Proof.Machine

def exec (i : Instr) (s : State) : Host.Outcome State Fault Refusal :=
  match i with
  | .truncF32x2 => Sys2Proof.Machine.execTruncF32x2 s
  | .truncF32x4 => Sys2Proof.Machine.execTruncF32x4 s
  | .truncF32x8 => Sys2Proof.Machine.execTruncF32x8 s
  | .truncF64x2 => Sys2Proof.Machine.execTruncF64x2 s
  | .truncF64x4 => Sys2Proof.Machine.execTruncF64x4 s
  | .truncF64x8 => Sys2Proof.Machine.execTruncF64x8 s
  | .fractF32x2 => Sys2Proof.Machine.execFractF32x2 s
  | .fractF32x4 => Sys2Proof.Machine.execFractF32x4 s
  | .fractF32x8 => Sys2Proof.Machine.execFractF32x8 s
  | .fractF64x2 => Sys2Proof.Machine.execFractF64x2 s
  | .fractF64x4 => Sys2Proof.Machine.execFractF64x4 s
  | .fractF64x8 => Sys2Proof.Machine.execFractF64x8 s
  | .floorF32x2 => Sys2Proof.Machine.execFloorF32x2 s
  | .floorF32x4 => Sys2Proof.Machine.execFloorF32x4 s
  | .floorF32x8 => Sys2Proof.Machine.execFloorF32x8 s
  | .floorF64x2 => Sys2Proof.Machine.execFloorF64x2 s
  | .floorF64x4 => Sys2Proof.Machine.execFloorF64x4 s
  | .floorF64x8 => Sys2Proof.Machine.execFloorF64x8 s
  | .ceilF32x2 => Sys2Proof.Machine.execCeilF32x2 s
  | .ceilF32x4 => Sys2Proof.Machine.execCeilF32x4 s
  | .ceilF32x8 => Sys2Proof.Machine.execCeilF32x8 s
  | .ceilF64x2 => Sys2Proof.Machine.execCeilF64x2 s
  | .ceilF64x4 => Sys2Proof.Machine.execCeilF64x4 s
  | .ceilF64x8 => Sys2Proof.Machine.execCeilF64x8 s
  | .roundF32x2 => Sys2Proof.Machine.execRoundF32x2 s
  | .roundF32x4 => Sys2Proof.Machine.execRoundF32x4 s
  | .roundF32x8 => Sys2Proof.Machine.execRoundF32x8 s
  | .roundF64x2 => Sys2Proof.Machine.execRoundF64x2 s
  | .roundF64x4 => Sys2Proof.Machine.execRoundF64x4 s
  | .roundF64x8 => Sys2Proof.Machine.execRoundF64x8 s
  | .sqrtF32x2 => Sys2Proof.Machine.execSqrtF32x2 s
  | .sqrtF32x4 => Sys2Proof.Machine.execSqrtF32x4 s
  | .sqrtF32x8 => Sys2Proof.Machine.execSqrtF32x8 s
  | .sqrtF64x2 => Sys2Proof.Machine.execSqrtF64x2 s
  | .sqrtF64x4 => Sys2Proof.Machine.execSqrtF64x4 s
  | .sqrtF64x8 => Sys2Proof.Machine.execSqrtF64x8 s
  | .fmaF32x2 => Sys2Proof.Machine.execFmaF32x2 s
  | .fmaF32x4 => Sys2Proof.Machine.execFmaF32x4 s
  | .fmaF32x8 => Sys2Proof.Machine.execFmaF32x8 s

end Sys2Proof.Machine
end

