-- ==== Sys2Proof/Machine/Step.lean ====
section
/-! DEFINITION. One step: reset, a stuck unit, idling, or one request answered by one response (R7, R202, R206,
R220, R227). -/

namespace Sys2Proof.Machine

/-- Reset comes first; a stuck unit answers nothing; otherwise the oldest request is taken and answered:
by its operation when OPSEL is legal, by IllegalOpsel when it is not, before any lane is computed (R202). -/
def step (s : State) : Host.Outcome State Fault Refusal :=
  if s.resetLine then .next s.takeReset
  else if s.stuck then .fault .stuck
  else match s.requests with
    | [] => .next s.idle
    | q :: rest =>
      match legalOperation s.cfg q.opsel with
      | .ok i => exec i (s.takeRequest q rest)
      | .error _ => .next (s.takeRequest q rest).takeIllegalOpsel

/-- The state in which the very next step answers a request with the word w: the request stands before all
others, reset is not asserted and the unit is not stuck (log 1). Its operands are the A, B and C that the request
port keeps (DESIGN CHOICE, log 26). -/
def State.withFetchWord (s : State) (nbits w : Nat) : State :=
  { s with requests := ⟨BitVec.ofNat 8 (w % 2 ^ nbits), s.a, s.b, s.c⟩ :: s.requests,
           stuck := false, resetLine := false }

end Sys2Proof.Machine
end

