-- ==== Sys2Proof/Machine/Value.lean ====
section
/-! DEFINITION. The exact rational value of a finite lane (40_bit_reinterpret.md R87), which the claims are stated with.
No step computes it. -/

namespace Sys2Proof.Machine

/-- `(-1)^s * M * 2^k` as a rational number. -/
def Exact.toRat (v : Exact) : ℚ := (if v.s then -1 else 1) * (v.M : ℚ) * (2 : ℚ) ^ v.k

/-- `value(x)` of a finite lane (R87); both zeros have the value 0. -/
def value (F : Fmt) {w : Nat} (x : BitVec w) : ℚ := (decodeLane F x).toRat

end Sys2Proof.Machine
end

