-- ==== Sys2Proof/Safety.lean ====
section
/-! DEFINITION. What counts as a safe run, in the terms the claims use: the unit stays responsive (60_exceptions.md
R200, R206), and the outputs of a presented response agree with the request on the port (10_state.md R25, R27). -/

namespace Sys2Proof.Machine

/-- The unit answers requests: it is not stuck, and reset is not asserted. -/
def State.responsive (s : State) : Prop := s.stuck = false ∧ s.resetLine = false

/-- The invariant of the response port. When a response is presented: ILLEGAL is 1 exactly when OPSEL names no
operation in SUPPORTED; the fault raised is IllegalOpsel(OPSEL) exactly then; and for a legal request R is 0
above the operation's vector. When none is presented, no fault is raised. R25, R27 and R202 say what a response
carries for its own request. The model's are: the fault recorded in a next state (logs 4, 12), no fault recorded
without a response (log 11), and the OPSEL compared with, which is the one left on the port (log 26). -/
def ResponseInv (s : State) : Prop :=
  (s.presented = false → s.raised = none) ∧
  (s.presented = true →
    s.illegal = illegalBit s.cfg s.opsel ∧
    s.raised = (if s.illegal then some (.illegalOpsel s.opsel) else none) ∧
    ∀ i, legalOperation s.cfg s.opsel = .ok i → ∀ j, i.vectorBits ≤ j → s.r.getLsbD j = false)

/-- A safe run: however many steps it takes, it ends in a state, never in a fault or a refusal. -/
def SafeRun (s : State) : Prop := ∀ k, ∃ t, Sys2Proof.core.run k s = .next t

end Sys2Proof.Machine
end

