-- ==== Sys2Proof/Certificates/Slice0/Obligations.lean ====
section
/-! DEFINITION. The statements for the provers. Under Sys2Proof.Rule stand the spec's lane pseudocode written out
with the spec's own literals, and the shapes the statements share; the obligations follow. -/

namespace Sys2Proof.Rule

open Sys2Proof.Machine

/-! ### What a legal response leaves (R25, R29, R95) -/

/-- From s to t the response port carries a legal response and nothing else of the unit has changed. R itself and
the model's count of draws (log 6) are not mentioned. That the request port keeps the request is log 26. -/
def OnlyAnswers (s t : State) : Prop :=
  t.illegal = false ∧ t.presented = true ∧ t.raised = none ∧
  t.cfg = s.cfg ∧ t.requests = s.requests ∧ t.opsel = s.opsel ∧ t.a = s.a ∧ t.b = s.b ∧ t.c = s.c ∧
  t.stuck = s.stuck ∧ t.resetLine = s.resetLine

/-- From every state the unary operation i answers: each of its n lanes of w bits holds a result that the rule
admits for that lane of A under the instance's configuration, R is 0 above them, nothing but the response port
changes, and B and C make no difference. -/
def UnaryAnswers (i : Instr) (w n : Nat) (admits : Config → BitVec w → BitVec w → Prop) : Prop :=
  ∀ s : State, ∃ t, exec i s = .next t ∧ OnlyAnswers s t ∧
    (∀ k, k < n → admits s.cfg (lane w s.a k) (lane w t.r k)) ∧
    (∀ j, w * n ≤ j → t.r.getLsbD j = false) ∧
    ∀ b c : Bus, ∃ t', exec i { s with b := b, c := c } = .next t' ∧ t'.r = t.r

/-- The same of a ternary operation, whose rule takes that lane of A, B and C. -/
def TernaryAnswers (i : Instr) (w n : Nat)
    (admits : Config → BitVec w → BitVec w → BitVec w → BitVec w → Prop) : Prop :=
  ∀ s : State, ∃ t, exec i s = .next t ∧ OnlyAnswers s t ∧
    (∀ k, k < n → admits s.cfg (lane w s.a k) (lane w s.b k) (lane w s.c k) (lane w t.r k)) ∧
    ∀ j, w * n ≤ j → t.r.getLsbD j = false

/-! ### The lane pseudocode of 41_rounding.md -/

/-- x is in `NaN_32` (R91). -/
abbrev IsNaN32 (x : BitVec 32) : Prop := x &&& 0x7F800000#32 = 0x7F800000#32 ∧ x &&& 0x007FFFFF#32 ≠ 0#32

/-- x is in `NaN_64` (R91). -/
abbrev IsNaN64 (x : BitVec 64) : Prop :=
  x &&& 0x7FF0000000000000#64 = 0x7FF0000000000000#64 ∧ x &&& 0x000FFFFFFFFFFFFF#64 ≠ 0#64

/-- E of a binary32 lane (R83). -/
def e32 (x : BitVec 32) : Nat := (x &&& 0x7FFFFFFF#32).toNat >>> 23

/-- E of a binary64 lane (R83). -/
def e64 (x : BitVec 64) : Nat := (x &&& 0x7FFFFFFFFFFFFFFF#64).toNat >>> 52

/-- `(1 << n) - 1` in a lane of w bits. -/
def lowMask (w n : Nat) : BitVec w := BitVec.ofNat w (2 ^ n - 1)

/-- trunc_f32 (R101). -/
def truncF32 (x : BitVec 32) : BitVec 32 :=
  let e : Int := (e32 x : Int) - 127
  if e ≥ 23 then x
  else if e < 0 then x &&& 0x80000000#32
  else x &&& ~~~ lowMask 32 (23 - e).toNat

/-- trunc_f64 (R102). -/
def truncF64 (x : BitVec 64) : BitVec 64 :=
  let e : Int := (e64 x : Int) - 1023
  if e ≥ 52 then x
  else if e < 0 then x &&& 0x8000000000000000#64
  else x &&& ~~~ lowMask 64 (52 - e).toNat

/-- y is a result fract_f32 admits for x (R103), its last line written as bits. -/
def FractF32 (x y : BitVec 32) : Prop :=
  let e : Int := (e32 x : Int) - 127
  if e32 x = 255 then IsNaN32 y
  else if x &&& 0x7FFFFFFF#32 = 0#32 then y = 0#32
  else if e ≥ 23 then y = 0#32
  else if e < 0 then y = x
  else
    let f := (x &&& lowMask 32 (23 - e).toNat).toNat
    if f = 0 then y = 0#32
    else
      let L := f.log2 + 1
      y = (x &&& 0x80000000#32) ||| BitVec.ofNat 32 (((L : Int) - 1 + e - 23 + 127).toNat * 2 ^ 23) |||
        (BitVec.ofNat 32 (f * 2 ^ (24 - L)) &&& 0x007FFFFF#32)

/-- y is a result fract_f64 admits for x (R104), its last line written as bits. -/
def FractF64 (x y : BitVec 64) : Prop :=
  let e : Int := (e64 x : Int) - 1023
  if e64 x = 2047 then IsNaN64 y
  else if x &&& 0x7FFFFFFFFFFFFFFF#64 = 0#64 then y = 0#64
  else if e ≥ 52 then y = 0#64
  else if e < 0 then y = x
  else
    let f := (x &&& lowMask 64 (52 - e).toNat).toNat
    if f = 0 then y = 0#64
    else
      let L := f.log2 + 1
      y = (x &&& 0x8000000000000000#64) ||| BitVec.ofNat 64 (((L : Int) - 1 + e - 52 + 1023).toNat * 2 ^ 52) |||
        (BitVec.ofNat 64 (f * 2 ^ (53 - L)) &&& 0x000FFFFFFFFFFFFF#64)

/-- floor_f32 (R105). -/
def floorF32 (x : BitVec 32) : BitVec 32 :=
  let e : Int := (e32 x : Int) - 127
  if e ≥ 23 then x
  else if e < 0 then
    if x.getLsbD 31 = false then 0x00000000#32
    else if x &&& 0x7FFFFFFF#32 = 0#32 then 0x80000000#32
    else 0xBF800000#32
  else
    let m := lowMask 32 (23 - e).toNat
    if x.getLsbD 31 = true ∧ x &&& m ≠ 0#32 then (x + m) &&& ~~~ m else x &&& ~~~ m

/-- floor_f64 (R106). -/
def floorF64 (x : BitVec 64) : BitVec 64 :=
  let e : Int := (e64 x : Int) - 1023
  if e ≥ 52 then x
  else if e < 0 then
    if x.getLsbD 63 = false then 0x0000000000000000#64
    else if x &&& 0x7FFFFFFFFFFFFFFF#64 = 0#64 then 0x8000000000000000#64
    else 0xBFF0000000000000#64
  else
    let m := lowMask 64 (52 - e).toNat
    if x.getLsbD 63 = true ∧ x &&& m ≠ 0#64 then (x + m) &&& ~~~ m else x &&& ~~~ m

/-- ceil_f32 (R107). -/
def ceilF32 (x : BitVec 32) : BitVec 32 :=
  let e : Int := (e32 x : Int) - 127
  if e ≥ 23 then x
  else if e < 0 then
    if x.getLsbD 31 = true then 0x80000000#32
    else if x = 0x00000000#32 then 0x00000000#32
    else 0x3F800000#32
  else
    let m := lowMask 32 (23 - e).toNat
    if x.getLsbD 31 = false ∧ x &&& m ≠ 0#32 then (x + m) &&& ~~~ m else x &&& ~~~ m

/-- ceil_f64 (R108). -/
def ceilF64 (x : BitVec 64) : BitVec 64 :=
  let e : Int := (e64 x : Int) - 1023
  if e ≥ 52 then x
  else if e < 0 then
    if x.getLsbD 63 = true then 0x8000000000000000#64
    else if x = 0x0000000000000000#64 then 0x0000000000000000#64
    else 0x3FF0000000000000#64
  else
    let m := lowMask 64 (52 - e).toNat
    if x.getLsbD 63 = false ∧ x &&& m ≠ 0#64 then (x + m) &&& ~~~ m else x &&& ~~~ m

/-- round_f32 (R109). -/
def roundF32 (x : BitVec 32) : BitVec 32 :=
  let E := e32 x
  if E ≥ 150 then x
  else if E < 126 then x &&& 0x80000000#32
  else if E = 126 then
    if x &&& 0x007FFFFF#32 = 0#32 then x &&& 0x80000000#32
    else (x &&& 0x80000000#32) ||| 0x3F800000#32
  else
    let s := 150 - E
    let m := lowMask 32 s
    let half := 2 ^ (s - 1)
    let f := (x &&& m).toNat
    let t := x &&& ~~~ m
    let lsb := (((x &&& 0x007FFFFF#32) ||| 0x00800000#32) >>> s) &&& 1#32
    if f > half ∨ (f = half ∧ lsb = 1#32) then t + (1#32 <<< s) else t

/-- round_f64 (R110). -/
def roundF64 (x : BitVec 64) : BitVec 64 :=
  let E := e64 x
  if E ≥ 1075 then x
  else if E < 1022 then x &&& 0x8000000000000000#64
  else if E = 1022 then
    if x &&& 0x000FFFFFFFFFFFFF#64 = 0#64 then x &&& 0x8000000000000000#64
    else (x &&& 0x8000000000000000#64) ||| 0x3FF0000000000000#64
  else
    let s := 1075 - E
    let m := lowMask 64 s
    let half := 2 ^ (s - 1)
    let f := (x &&& m).toNat
    let t := x &&& ~~~ m
    let lsb := (((x &&& 0x000FFFFFFFFFFFFF#64) ||| 0x0010000000000000#64) >>> s) &&& 1#64
    if f > half ∨ (f = half ∧ lsb = 1#64) then t + (1#64 <<< s) else t

/-! ### The lane pseudocode of 42_sqrt.md and 43_fma.md -/

/-- `SQRT_CR_W(x)` by the integer algorithm of R155, from the significand M and exponent k of decode(x), with
the floor square root of Nat for isqrt. -/
def sqrtCR (p bias M : Nat) (k : Int) : Nat :=
  let M' := if k % 2 = 1 then M * 2 else M
  let k' := if k % 2 = 1 then k - 1 else k
  let L := M'.log2 + 1
  let q := (2 * p + 2 - L) / 2
  let N := M' * 2 ^ (2 * q)
  let S := Nat.sqrt N
  let rem := N - S * S
  let y := S + if rem > S then 1 else 0
  let Eres : Int := k' / 2 - (q : Int) + (p : Int) + (bias : Int)
  (Eres - 1).toNat * 2 ^ p + y

/-- M and k of decode(x) for a non-negative binary32 lane (R88). -/
def decode32 (x : BitVec 32) : Nat × Int :=
  let f := (x &&& 0x007FFFFF#32).toNat
  if e32 x = 0 then (f, 1 - 127 - 23) else (f + 2 ^ 23, (e32 x : Int) - 127 - 23)

/-- M and k of decode(x) for a non-negative binary64 lane (R88). -/
def decode64 (x : BitVec 64) : Nat × Int :=
  let f := (x &&& 0x000FFFFFFFFFFFFF#64).toNat
  if e64 x = 0 then (f, 1 - 1023 - 52) else (f + 2 ^ 52, (e64 x : Int) - 1023 - 52)

/-- y is the largest representable value not above the root of x: positive, normal, and the next pattern's value is
above the root. The positive patterns y and y + 1 are consecutive representable values (R90 RD, R152 `faithful`). -/
def SqrtLower (F : Fmt) {w : Nat} (x y : BitVec w) : Prop :=
  classify F y = .normal ∧ sign y = false ∧ value F y ^ 2 ≤ value F x ∧ value F x < value F (y + 1) ^ 2

/-- y is the smallest representable value not below the root of x: positive, normal, and the previous pattern's value
is below the root (R90 RU, R152 `faithful`). -/
def SqrtUpper (F : Fmt) {w : Nat} (x y : BitVec w) : Prop :=
  classify F y = .normal ∧ sign y = false ∧ value F (y - 1) ^ 2 < value F x ∧ value F x ≤ value F y ^ 2

/-- y is the representable value nearest to the root of x: the root lies strictly between the midpoints of y
with its neighbours (R152 `correctly_rounded`; no tie can occur). -/
def SqrtNearest (F : Fmt) {w : Nat} (x y : BitVec w) : Prop :=
  ((value F (y - 1) + value F y) / 2) ^ 2 < value F x ∧ value F x < ((value F y + value F (y + 1)) / 2) ^ 2

/-- y is a result sqrt_f32 admits for x under the instance's ACC_SQRT_F32 (R150, R151). Under `faithful` it is
the model's lower or upper root, which SqrtFaithfulNeighbours characterises. -/
def SqrtF32 (g : Config) (x y : BitVec 32) : Prop :=
  if x = 0x7F800000#32 ∨ x &&& 0x7FFFFFFF#32 = 0#32 then y = x
  else if IsNaN32 x ∨ x.getLsbD 31 = true then IsNaN32 y
  else match g.accSqrtF32 with
    | .correctlyRounded => y = BitVec.ofNat 32 (sqrtCR 23 127 (decode32 x).1 (decode32 x).2)
    | .faithful => y = sqrtDown binary32 x ∨ y = sqrtUp binary32 x
    | .signOnly => y.getLsbD 31 = false

/-- y is a result sqrt_f64 admits for x under the instance's ACC_SQRT_F64 (R150, R154). -/
def SqrtF64 (g : Config) (x y : BitVec 64) : Prop :=
  if x = 0x7FF0000000000000#64 ∨ x &&& 0x7FFFFFFFFFFFFFFF#64 = 0#64 then y = x
  else if IsNaN64 x ∨ x.getLsbD 63 = true then IsNaN64 y
  else match g.accSqrtF64 with
    | .correctlyRounded => y = BitVec.ofNat 64 (sqrtCR 52 1023 (decode64 x).1 (decode64 x).2)
    | .faithful => y = sqrtDown binary64 x ∨ y = sqrtUp binary64 x
    | .signOnly => y.getLsbD 63 = false

/-- x is +Inf or -Inf. -/
abbrev IsInf32 (x : BitVec 32) : Prop := x &&& 0x7FFFFFFF#32 = 0x7F800000#32

/-- x is +0 or -0. -/
abbrev IsZero32 (x : BitVec 32) : Prop := x &&& 0x7FFFFFFF#32 = 0#32

/-- `(-1)^s * M`. -/
def signed (s : Bool) (M : Int) : Int := if s then -M else M

/-- `Nv` and `k0` of R182: the exact value of `a*b + c` is `Nv * 2^k0`. -/
def fmaValue (a b c : BitVec 32) : Int × Int :=
  let ka := (decode32 a).2
  let kb := (decode32 b).2
  let kc := (decode32 c).2
  let k0 := min (ka + kb) kc
  (signed (xor (a.getLsbD 31) (b.getLsbD 31)) (((decode32 a).1 * (decode32 b).1 : Nat) : Int) *
      2 ^ (ka + kb - k0).toNat +
    signed (c.getLsbD 31) ((decode32 c).1 : Int) * 2 ^ (kc - k0).toNat, k0)

/-- y is in `FmaSet_32(v, acc)` (R181), over RNE_32 (R89) and Faithful_32 (R90). -/
def FmaSet (acc : FmaAcc) (v : Exact) (y : BitVec 32) : Prop :=
  match acc with
  | .correctlyRounded => y = rne binary32 32 v
  | .crNormal =>
    if atLeastNormal binary32 v = true ∨ representable binary32 v = true then y = rne binary32 32 v
    else y ∈ faithful binary32 32 v
  | .faithful => y ∈ faithful binary32 32 v

/-- y is a result fma_f32 admits for a, b and c under the instance's ACC_FMA_F32 (R180). -/
def FmaF32 (g : Config) (a b c y : BitVec 32) : Prop :=
  let sp := xor (a.getLsbD 31) (b.getLsbD 31)
  if IsNaN32 a ∨ IsNaN32 b ∨ IsNaN32 c then IsNaN32 y
  else if (IsInf32 a ∧ IsZero32 b) ∨ (IsZero32 a ∧ IsInf32 b) then IsNaN32 y
  else if IsInf32 a ∨ IsInf32 b then
    if IsInf32 c ∧ c.getLsbD 31 ≠ sp then IsNaN32 y
    else y = if sp then 0xFF800000#32 else 0x7F800000#32
  else if IsInf32 c then y = c
  else if (fmaValue a b c).1 = 0 then
    if (IsZero32 a ∨ IsZero32 b) ∧ IsZero32 c then
      y = if sp = true ∧ c.getLsbD 31 = true then 0x80000000#32 else 0x00000000#32
    else y = 0x00000000#32
  else FmaSet g.accFmaF32 ⟨decide ((fmaValue a b c).1 < 0), (fmaValue a b c).1.natAbs, (fmaValue a b c).2⟩ y

/-! ### The faithful set (R90) -/

/-- y is RD of the magnitude q: finite, and the largest finite magnitude not above q. -/
def IsRD (F : Fmt) {w : Nat} (q : ℚ) (y : BitVec w) : Prop :=
  isFinite F y = true ∧ |value F y| ≤ q ∧
  ∀ z : BitVec w, isFinite F z = true → |value F z| ≤ q → |value F z| ≤ |value F y|

/-- y is RU of the magnitude q: finite, and the smallest finite magnitude not below q; or an infinity, when every
finite magnitude is below q. -/
def IsRU (F : Fmt) {w : Nat} (q : ℚ) (y : BitVec w) : Prop :=
  (isFinite F y = true ∧ q ≤ |value F y| ∧
    ∀ z : BitVec w, isFinite F z = true → q ≤ |value F z| → |value F y| ≤ |value F z|) ∨
  (isInf F y = true ∧ ∀ z : BitVec w, isFinite F z = true → |value F z| < q)

/-! ### Where the draws of a response come from (R13, R91, R152, R181; logs 6, 7 and 8) -/

/-- From every state the unary operation i answers and counts n draws, and lane k of R is as drawn says of that lane
of A and of the free value at the state's count plus k. -/
def UnaryDraws (i : Instr) (w n : Nat) (drawn : Config → BitVec w → BitVec w → BitVec w → Prop) : Prop :=
  ∀ s : State, ∃ t, exec i s = .next t ∧ t.draws = s.draws + n ∧
    ∀ k, k < n → drawn s.cfg (lane w s.a k) ((Config.freeValue (s.draws + k)).setWidth w) (lane w t.r k)

/-- The same of a ternary operation. -/
def TernaryDraws (i : Instr) (w n : Nat)
    (drawn : Config → BitVec w → BitVec w → BitVec w → BitVec w → BitVec w → Prop) : Prop :=
  ∀ s : State, ∃ t, exec i s = .next t ∧ t.draws = s.draws + n ∧
    ∀ k, k < n → drawn s.cfg (lane w s.a k) (lane w s.b k) (lane w s.c k)
      ((Config.freeValue (s.draws + k)).setWidth w) (lane w t.r k)

/-- fract of a NaN or an infinity is the NaN draw of d (R103). -/
def FractDrawsF32 (_ : Config) (x d y : BitVec 32) : Prop := e32 x = 255 → y = anyNaN binary32 d

/-- fract of a NaN or an infinity is the NaN draw of d (R104). -/
def FractDrawsF64 (_ : Config) (x d y : BitVec 64) : Prop := e64 x = 2047 → y = anyNaN binary64 d

/-- sqrt of a NaN or of a negative nonzero lane is the NaN draw of d; of a positive finite nonzero lane, the root that
bit 0 of d chooses under `faithful`, and d without its sign bit under `sign_only` (R150, R152). -/
def SqrtDrawsF32 (g : Config) (x d y : BitVec 32) : Prop :=
  (IsNaN32 x ∨ (x.getLsbD 31 = true ∧ x &&& 0x7FFFFFFF#32 ≠ 0#32) → y = anyNaN binary32 d) ∧
  (x.getLsbD 31 = false → x ≠ 0#32 → e32 x ≠ 255 →
    (g.accSqrtF32 = .faithful → y = if d.getLsbD 0 then sqrtUp binary32 x else sqrtDown binary32 x) ∧
    (g.accSqrtF32 = .signOnly → y = d &&& 0x7FFFFFFF#32))

/-- The same of a binary64 lane (R150, R152, R153). -/
def SqrtDrawsF64 (g : Config) (x d y : BitVec 64) : Prop :=
  (IsNaN64 x ∨ (x.getLsbD 63 = true ∧ x &&& 0x7FFFFFFFFFFFFFFF#64 ≠ 0#64) → y = anyNaN binary64 d) ∧
  (x.getLsbD 63 = false → x ≠ 0#64 → e64 x ≠ 2047 →
    (g.accSqrtF64 = .faithful → y = if d.getLsbD 0 then sqrtUp binary64 x else sqrtDown binary64 x) ∧
    (g.accSqrtF64 = .signOnly → y = d &&& 0x7FFFFFFFFFFFFFFF#64))

/-- fma with a NaN operand, of Inf * 0 or of Inf - Inf is the NaN draw of d (R180). For finite lanes whose exact
value is not zero it is the faithful member that bit 0 of d chooses, under `faithful` and, below 2^-126, under
`cr_normal` (R181; for a representable value the two members are one). -/
def FmaDrawsF32 (g : Config) (a b c d y : BitVec 32) : Prop :=
  let v := value binary32 a * value binary32 b + value binary32 c
  (IsNaN32 a ∨ IsNaN32 b ∨ IsNaN32 c ∨ (IsInf32 a ∧ IsZero32 b) ∨ (IsZero32 a ∧ IsInf32 b) ∨
      ((IsInf32 a ∨ IsInf32 b) ∧ IsInf32 c ∧ c.getLsbD 31 ≠ xor (a.getLsbD 31) (b.getLsbD 31)) →
    y = anyNaN binary32 d) ∧
  (e32 a ≠ 255 → e32 b ≠ 255 → e32 c ≠ 255 → v ≠ 0 →
    g.accFmaF32 = .faithful ∨ (g.accFmaF32 = .crNormal ∧ |v| < (2 : ℚ) ^ (-126 : Int)) →
    ∃ lo hi, faithful binary32 32 (fmaExact binary32 a b c) = [lo, hi] ∧ y = if d.getLsbD 0 then hi else lo)

end Sys2Proof.Rule

open Sys2Proof Sys2Proof.Machine

/-- For each of the 39 rows of the opcode map, the word in its OPSEL column decodes to the row's operation, the
operation encodes to that word, its kind, element type and lane count are those of its name, and its vector has the
N·W bits of the row. [R70] -/
def Obligations.OpcodeMapIsTheSpecsTable : Prop :=
  ∀ row ∈ ([(0x00#8, .truncF32x2, .trunc, .f32, .x2, 64), (0x10#8, .truncF32x4, .trunc, .f32, .x4, 128),
     (0x20#8, .truncF32x8, .trunc, .f32, .x8, 256), (0x08#8, .truncF64x2, .trunc, .f64, .x2, 128),
     (0x18#8, .truncF64x4, .trunc, .f64, .x4, 256), (0x28#8, .truncF64x8, .trunc, .f64, .x8, 512),
     (0x01#8, .fractF32x2, .fract, .f32, .x2, 64), (0x11#8, .fractF32x4, .fract, .f32, .x4, 128),
     (0x21#8, .fractF32x8, .fract, .f32, .x8, 256), (0x09#8, .fractF64x2, .fract, .f64, .x2, 128),
     (0x19#8, .fractF64x4, .fract, .f64, .x4, 256), (0x29#8, .fractF64x8, .fract, .f64, .x8, 512),
     (0x02#8, .floorF32x2, .floor, .f32, .x2, 64), (0x12#8, .floorF32x4, .floor, .f32, .x4, 128),
     (0x22#8, .floorF32x8, .floor, .f32, .x8, 256), (0x0A#8, .floorF64x2, .floor, .f64, .x2, 128),
     (0x1A#8, .floorF64x4, .floor, .f64, .x4, 256), (0x2A#8, .floorF64x8, .floor, .f64, .x8, 512),
     (0x03#8, .ceilF32x2, .ceil, .f32, .x2, 64), (0x13#8, .ceilF32x4, .ceil, .f32, .x4, 128),
     (0x23#8, .ceilF32x8, .ceil, .f32, .x8, 256), (0x0B#8, .ceilF64x2, .ceil, .f64, .x2, 128),
     (0x1B#8, .ceilF64x4, .ceil, .f64, .x4, 256), (0x2B#8, .ceilF64x8, .ceil, .f64, .x8, 512),
     (0x04#8, .roundF32x2, .round, .f32, .x2, 64), (0x14#8, .roundF32x4, .round, .f32, .x4, 128),
     (0x24#8, .roundF32x8, .round, .f32, .x8, 256), (0x0C#8, .roundF64x2, .round, .f64, .x2, 128),
     (0x1C#8, .roundF64x4, .round, .f64, .x4, 256), (0x2C#8, .roundF64x8, .round, .f64, .x8, 512),
     (0x05#8, .sqrtF32x2, .sqrt, .f32, .x2, 64), (0x15#8, .sqrtF32x4, .sqrt, .f32, .x4, 128),
     (0x25#8, .sqrtF32x8, .sqrt, .f32, .x8, 256), (0x0D#8, .sqrtF64x2, .sqrt, .f64, .x2, 128),
     (0x1D#8, .sqrtF64x4, .sqrt, .f64, .x4, 256), (0x2D#8, .sqrtF64x8, .sqrt, .f64, .x8, 512),
     (0x06#8, .fmaF32x2, .fma, .f32, .x2, 64), (0x16#8, .fmaF32x4, .fma, .f32, .x4, 128),
     (0x26#8, .fmaF32x8, .fma, .f32, .x8, 256)] : List (Opsel × Instr × OpKind × ElemType × LaneCount × Nat)),
    decode row.1 = .ok row.2.1 ∧ encode row.2.1 = row.1 ∧ row.2.1.kind = row.2.2.1 ∧
    row.2.1.elem = row.2.2.2.1 ∧ row.2.1.lanes = row.2.2.2.2.1 ∧ row.2.1.vectorBits = row.2.2.2.2.2

/-- Seven words, one of each operation kind, written out field by field (RSV, LN, FMT, OP) from the tables of R60 to
R64, decode to the operation those fields name. [30_encoding.md section 1] -/
def Obligations.FewWordsBitByBit : Prop :=
  decode (0b00#2 ++ 0b00#2 ++ 0b0#1 ++ 0b000#3) = .ok .truncF32x2 ∧
  decode (0b00#2 ++ 0b01#2 ++ 0b0#1 ++ 0b001#3) = .ok .fractF32x4 ∧
  decode (0b00#2 ++ 0b10#2 ++ 0b1#1 ++ 0b010#3) = .ok .floorF64x8 ∧
  decode (0b00#2 ++ 0b01#2 ++ 0b1#1 ++ 0b011#3) = .ok .ceilF64x4 ∧
  decode (0b00#2 ++ 0b10#2 ++ 0b0#1 ++ 0b100#3) = .ok .roundF32x8 ∧
  decode (0b00#2 ++ 0b10#2 ++ 0b1#1 ++ 0b101#3) = .ok .sqrtF64x8 ∧
  decode (0b00#2 ++ 0b00#2 ++ 0b0#1 ++ 0b110#3) = .ok .fmaF32x2

/-- A word decodes to some operation exactly when RSV is 00, LN is 00 to 10, and OP is 000 to 101, or 110 with FMT 0; no
two words decode to one operation; every operation is decoded from its own encoding; and there are 39 of them. Every
other word is rejected. [30_encoding.md section 3 (R66, without its sentence on SUPPORTED)] -/
def Obligations.LegalWordsAreExactlyThe39 : Prop :=
  (∀ w : Opsel, (∃ i, decode w = .ok i) ↔
    w.extractLsb 7 6 = 0b00#2 ∧ w.extractLsb 5 4 ∈ [0b00#2, 0b01#2, 0b10#2] ∧
    (w.extractLsb 2 0 ∈ [0b000#3, 0b001#3, 0b010#3, 0b011#3, 0b100#3, 0b101#3] ∨
      (w.extractLsb 2 0 = 0b110#3 ∧ w.extractLsb 3 3 = 0b0#1))) ∧
  (∀ v w i, decode v = .ok i → decode w = .ok i → v = w) ∧
  (∀ i : Instr, i ∈ Instr.all ∧ decode (encode i) = .ok i) ∧ Instr.all.length = 39 ∧ Instr.all.Nodup

/-- For every configuration, a word is illegal exactly when OP = 111, or LN = 11, or RSV is not 00, or OP = 110 with FMT
= 1, or its operation is not in SUPPORTED; under the default configuration 217 of the 256 words are illegal.
[30_encoding.md section 4 (R71, without what it says of responses and hints)] -/
def Obligations.IllegalWordsOfEveryInstance : Prop :=
  (∀ (g : Config) (w : Opsel), (∃ e, legalOperation g w = .error e) ↔
    w.extractLsb 2 0 = 0b111#3 ∨ w.extractLsb 5 4 = 0b11#2 ∨ w.extractLsb 7 6 ≠ 0b00#2 ∨
    (w.extractLsb 2 0 = 0b110#3 ∧ w.extractLsb 3 3 = 0b1#1) ∨
    ∃ i, decode w = .ok i ∧ i ∉ g.supported) ∧
  (List.range 256).countP (fun n => illegalBit Config.default (BitVec.ofNat 8 n)) = 217

/-- When reset is not asserted, the unit is not stuck, the oldest request's OPSEL decodes to i and i is in SUPPORTED, a
step is exec of i in the state where that request has left the queue and stands on the request port. The queue and
the port are the model's (logs 1 and 20). [30_encoding.md section 3 (R67), 70_reset_and_hazards.md section 3 (R227)] -/
def Obligations.StepRunsTheDecodedOperation : Prop :=
  ∀ (s : State) (q : Request) (rest : List Request) (i : Instr),
    s.resetLine = false → s.stuck = false → s.requests = q :: rest →
    decode q.opsel = .ok i → i ∈ s.cfg.supported →
    step s = exec i { s with requests := rest, opsel := q.opsel, a := q.a, b := q.b, c := q.c }

/-- A step on a request whose OPSEL is illegal answers: ILLEGAL is 1, the fault recorded is IllegalOpsel(OPSEL) with
cause code 1, R is not constrained, and the configuration and the other requests are unchanged; a step on a legal
one is the operation, with ILLEGAL 0 and code 0 (no fault); and after an illegal request the next step answers a
legal next request normally. That the fault is a next state recorded in the field raised is the model's (log 4), and
so are the queue, one answer a step, and that the request answered stays on the port (logs 1, 20 and 26).
[60_exceptions.md section 1 (R202, without its sentence that no other cause code exists)] -/
def Obligations.IllegalRequestIsAnsweredAndTheUnitGoesOn : Prop :=
  causeCode none = 0 ∧
  (∀ (s : State) (q : Request) (rest : List Request) (e : IllegalReason),
    s.resetLine = false → s.stuck = false → s.requests = q :: rest → legalOperation s.cfg q.opsel = .error e →
    ∃ t, step s = .next t ∧ t.illegal = true ∧ t.presented = true ∧
      t.raised = some (.illegalOpsel q.opsel) ∧ causeCode t.raised = 1 ∧
      t.requests = rest ∧ t.opsel = q.opsel ∧ t.a = q.a ∧ t.b = q.b ∧ t.c = q.c ∧
      t.cfg = s.cfg ∧ t.stuck = false ∧ t.resetLine = false) ∧
  (∀ (s : State) (q : Request) (rest : List Request) (i : Instr),
    s.resetLine = false → s.stuck = false → s.requests = q :: rest → legalOperation s.cfg q.opsel = .ok i →
    ∃ t, step s = .next t ∧ exec i { s with requests := rest, opsel := q.opsel, a := q.a, b := q.b, c := q.c } = .next t ∧
      t.illegal = false ∧ t.presented = true ∧ causeCode t.raised = 0) ∧
  (∀ (s t : State) (q q' : Request) (rest : List Request) (e : IllegalReason) (i : Instr),
    s.resetLine = false → s.stuck = false → s.requests = q :: q' :: rest →
    legalOperation s.cfg q.opsel = .error e → legalOperation s.cfg q'.opsel = .ok i → step s = .next t →
    ∃ u, step t = .next u ∧ u.illegal = false ∧ u.presented = true ∧ u.opsel = q'.opsel)

/-- For every operation and every state, whatever the operand bits, exec answers a next state in which ILLEGAL is 0, a
response is presented, no fault is raised, R is 0 above the operation's vector, and the configuration, the requests,
the request port, the stuck bit and the reset line are as before (that the port keeps the request is log 26); the
model's own count of draws goes up by the lane count (log 6). [60_exceptions.md section 1 (R200), 10_state.md
section 2 (R27)] -/
def Obligations.EveryOperationCompletesOnEveryOperand : Prop :=
  ∀ (i : Instr) (s : State), ∃ t, exec i s = .next t ∧ Rule.OnlyAnswers s t ∧
    (∀ j, i.vectorBits ≤ j → t.r.getLsbD j = false) ∧ t.draws = s.draws + i.lanes.count

/-- A step ends in the fault stuck exactly when the unit is stuck and reset is not asserted; no step that answers leaves
the unit stuck (no rule reaches a panic); and a step with reset asserted clears it. That a stuck unit's step is a
fault is the model's (log 13). [60_exceptions.md section 2 (R206), 70_reset_and_hazards.md section 1 (R220)] -/
def Obligations.StuckUnitAnswersNothingUntilReset : Prop :=
  (∀ s : State, step s = .fault .stuck ↔ s.stuck = true ∧ s.resetLine = false) ∧
  (∀ s t : State, step s = .next t → t.stuck = false) ∧
  (∀ s : State, s.resetLine = true → ∃ t, step s = .next t ∧ t.stuck = false)

/-- The reset state has no request outstanding, presents no response, has raised no fault and is not stuck; and its
configuration is the default instance: SUPPORTED is all 39 operations, ACC_SQRT_F32 correctly_rounded, ACC_SQRT_F64
sign_only, ACC_FMA_F32 cr_normal. The defaults are the spec's; that State.reset carries the default instance is the
model's choice of State.reset only (log 2): a reset step keeps whatever configuration the instance has
(ResetDropsRequestsInFlight). [70_reset_and_hazards.md section 1 (R220, R221), 00_scope.md section 3 (R10, R11)] -/
def Obligations.ResetStateHasNothingOutstanding : Prop :=
  State.reset.requests = [] ∧ State.reset.presented = false ∧ State.reset.raised = none ∧
  State.reset.stuck = false ∧ State.reset.cfg = Config.default ∧
  (∀ i : Instr, i ∈ State.reset.cfg.supported) ∧
  State.reset.cfg.accSqrtF32 = .correctlyRounded ∧ State.reset.cfg.accSqrtF64 = .signOnly ∧
  State.reset.cfg.accFmaF32 = .crNormal

/-- From every state, stuck or not, a step with reset asserted leaves no request outstanding, presents no response and
keeps the configuration; a legal request accepted afterwards is answered by the next step with ILLEGAL 0 (its R and
the illegal requests are those of any other step, StepRunsTheDecodedOperation and
IllegalRequestIsAnsweredAndTheUnitGoesOn). That the reset line is released by that step is the model's (log 14), and
so are the queue, one answer a step, and that the request answered stays on the port (logs 1, 20 and 26).
[70_reset_and_hazards.md section 1 (R220, R221, R222)] -/
def Obligations.ResetDropsRequestsInFlight : Prop :=
  ∀ s : State, s.resetLine = true → ∃ t, step s = .next t ∧ t.requests = [] ∧ t.presented = false ∧
    t.raised = none ∧ t.stuck = false ∧ t.cfg = s.cfg ∧
    ∀ q : Request, ∀ i, legalOperation s.cfg q.opsel = .ok i →
      ∃ u, step (t.accept q) = .next u ∧ u.presented = true ∧ u.illegal = false ∧ u.opsel = q.opsel

/-- When no request is outstanding, a step leaves every part of the state but the two marks of a presented response as
it was, and presents no response. That an idle step withdraws the marks and that the request port keeps the last
request are the model's (logs 11 and 26). [60_exceptions.md section 3 (R212), 70_reset_and_hazards.md section 1
(R221)] -/
def Obligations.IdleUnitPresentsNoResponse : Prop :=
  ∀ s : State, s.resetLine = false → s.stuck = false → s.requests = [] →
    step s = .next { s with presented := false, raised := none }

/-- Whatever a step or an operation does, SUPPORTED, the accuracy parameters and the seed table of the next state are
those of the state before. That the configuration is carried in State is the model's (log 2). [10_state.md section 4
(R31), 10_state.md section 3 (R28)] -/
def Obligations.ConfigurationNeverChanges : Prop :=
  (∀ s t : State, step s = .next t → t.cfg = s.cfg) ∧ ∀ i s t, exec i s = .next t → t.cfg = s.cfg

/-- The reset state meets the invariant of the response port: it presents no response and has raised no fault. The
invariant's clauses on the field raised and on the OPSEL left on the port are the model's (logs 4, 11, 12 and 26).
[70_reset_and_hazards.md section 1 (R221)] -/
def Obligations.ResponseInvariantHoldsAtReset : Prop :=
  ResponseInv State.reset

/-- From every state that meets it, a step keeps the invariant of the response port: a presented response has ILLEGAL =
1 exactly when the OPSEL on the port names no operation in SUPPORTED, the fault recorded is IllegalOpsel(OPSEL)
exactly then, R is 0 above N·W for a legal OPSEL, and no fault is recorded when no response is presented. Of this
the spec says what a response carries for its own request (ILLEGAL, R above N·W, the fault raised). The rest is the
model's: the marks tell of the last step only, so no fault is recorded without a response (log 11); the fault is a
next state, recorded in the field raised (logs 4 and 12); and the request answered stays on the port, so the
response can be compared with the OPSEL there (log 26). [10_state.md section 2 (R25, R27: of a response and its own
request), 60_exceptions.md section 1 (R202: the fault and its information)] -/
def Obligations.EveryStepKeepsTheResponseInvariant : Prop :=
  ∀ s t : State, ResponseInv s → step s = .next t → ResponseInv t

/-- From every state that is not stuck and not in reset, a run of k steps ends in a state; the first k requests have
left the queue; and after the k-th step the response presented is that of the k-th request accepted, with ILLEGAL as
its OPSEL requires. The queue, one request answered by each step, and the request staying on the port are the
model's (logs 1, 20 and 26). [70_reset_and_hazards.md section 3 (R227), 60_exceptions.md section 1 (R200, R202),
20_memory.md section 2 (R44)] -/
def Obligations.RunAnswersTheRequestsInOrder : Prop :=
  ∀ (s : State) (k : Nat), s.responsive →
    ∃ t, Sys2Proof.core.run k s = .next t ∧ t.responsive ∧ t.cfg = s.cfg ∧
      t.requests = s.requests.drop k ∧
      ∀ (n : Nat) (q : Request), k = n + 1 → s.requests[n]? = some q →
        t.presented = true ∧ t.opsel = q.opsel ∧ t.a = q.a ∧ t.b = q.b ∧ t.c = q.c ∧
        t.illegal = illegalBit s.cfg q.opsel

/-- When a request is outstanding, accepting one more and then taking a step gives the same as taking the step and then
accepting it: the unit may accept a request before it has answered an earlier one, and responses stay in order. The
queue is the model's (logs 1 and 20). [70_reset_and_hazards.md section 3 (R227), 20_memory.md section 3 (R46)] -/
def Obligations.AcceptingBehindDoesNotChangeAnAnswer : Prop :=
  ∀ (s : State) (q : Request), s.responsive → s.requests ≠ [] →
    ∃ t, step s = .next t ∧ step (s.accept q) = .next (t.accept q)

/-- Two responsive states with the same oldest request, the same configuration and the same count of draws give the same
response, whatever else differs: the other requests, the earlier responses, the values left on the ports. That the
count of draws stands for the request's NaN draws is the model's (log 6); the sentence of R46 on interleavings is
not stated. [20_memory.md section 3 (R46, without its sentence on interleavings)] -/
def Obligations.ResponseDependsOnlyOnItsRequest : Prop :=
  ∀ (s s' : State) (q : Request) (rest rest' : List Request),
    s.responsive → s'.responsive → s.requests = q :: rest → s'.requests = q :: rest' →
    s.cfg = s'.cfg → s.draws = s'.draws →
    ∃ t t', step s = .next t ∧ step s' = .next t' ∧
      t.r = t'.r ∧ t.illegal = t'.illegal ∧ t.presented = t'.presented ∧ t.raised = t'.raised

/-- For every operation, two states that agree on the configuration, on the draws and on lane k of A, B and C give
results with the same lane k, whatever the other lanes and the operand bits above the vector hold. That the count
stands for the draws is the model's (log 6). [40_bit_reinterpret.md section 4 (R95), 10_state.md section 2 (R26)] -/
def Obligations.LanesAreIndependent : Prop :=
  ∀ (i : Instr) (s s' : State) (k : Nat), k < i.lanes.count →
    s.cfg = s'.cfg → s.draws = s'.draws →
    lane i.elem.width s.a k = lane i.elem.width s'.a k →
    lane i.elem.width s.b k = lane i.elem.width s'.b k →
    lane i.elem.width s.c k = lane i.elem.width s'.c k →
    ∃ t t', exec i s = .next t ∧ exec i s' = .next t' ∧
      lane i.elem.width t.r k = lane i.elem.width t'.r k

/-- Replacing the whole seed table before an operation changes nothing of what the operation does but the table itself
in the configuration. [42_sqrt.md section 2 (R163, first sentence), 00_scope.md section 3 (R12)] -/
def Obligations.NoResultReadsTheSeedTable : Prop :=
  ∀ (i : Instr) (s : State) (table : Vector (BitVec 16) 128),
    ∃ t, exec i s = .next t ∧
      exec i { s with cfg := { s.cfg with seedTable := table } } =
        .next { t with cfg := { t.cfg with seedTable := table } }

/-- For every form of fract, sqrt and fma: a response of N lanes raises the count of draws by N, and a lane's free
result is made of the free value at that count plus the lane's number: the NaN draw of every lane whose result is
one (E all ones for fract; NaN and negative nonzero lanes for sqrt; NaN operands, Inf·0 and Inf - Inf for fma), the
choice between the two faithful members, and the sign_only root. The other operations draw nothing that reaches R. R
of an illegal request is the free value at the count, which goes up by 1; the outputs after a reset step are the
next two free values. No step lowers the count, so no two lanes and no two responses share an index. The index, the
NaN map, the choice by bit 0 and the free outputs after a reset are the model's (logs 6, 7, 8 and 9). [00_scope.md
section 3 (R13), 40_bit_reinterpret.md section 2 (R90, R91), 42_sqrt.md section 1 (R150, R152), 43_fma.md section 1
(R180, R181), 60_exceptions.md section 1 (R202)] -/
def Obligations.EachLaneHasItsOwnDraw : Prop :=
  Rule.UnaryDraws .fractF32x2 32 2 Rule.FractDrawsF32 ∧
  Rule.UnaryDraws .fractF32x4 32 4 Rule.FractDrawsF32 ∧
  Rule.UnaryDraws .fractF32x8 32 8 Rule.FractDrawsF32 ∧
  Rule.UnaryDraws .fractF64x2 64 2 Rule.FractDrawsF64 ∧
  Rule.UnaryDraws .fractF64x4 64 4 Rule.FractDrawsF64 ∧
  Rule.UnaryDraws .fractF64x8 64 8 Rule.FractDrawsF64 ∧
  Rule.UnaryDraws .sqrtF32x2 32 2 Rule.SqrtDrawsF32 ∧
  Rule.UnaryDraws .sqrtF32x4 32 4 Rule.SqrtDrawsF32 ∧
  Rule.UnaryDraws .sqrtF32x8 32 8 Rule.SqrtDrawsF32 ∧
  Rule.UnaryDraws .sqrtF64x2 64 2 Rule.SqrtDrawsF64 ∧
  Rule.UnaryDraws .sqrtF64x4 64 4 Rule.SqrtDrawsF64 ∧
  Rule.UnaryDraws .sqrtF64x8 64 8 Rule.SqrtDrawsF64 ∧
  Rule.TernaryDraws .fmaF32x2 32 2 Rule.FmaDrawsF32 ∧
  Rule.TernaryDraws .fmaF32x4 32 4 Rule.FmaDrawsF32 ∧
  Rule.TernaryDraws .fmaF32x8 32 8 Rule.FmaDrawsF32 ∧
  (∀ i : Instr, i.kind = .trunc ∨ i.kind = .floor ∨ i.kind = .ceil ∨ i.kind = .round →
    ∀ (s : State) (m : Nat), ∃ t t', exec i s = .next t ∧ exec i { s with draws := m } = .next t' ∧ t.r = t'.r) ∧
  (∀ (s : State) (q : Request) (rest : List Request) (e : IllegalReason),
    s.resetLine = false → s.stuck = false → s.requests = q :: rest → legalOperation s.cfg q.opsel = .error e →
    ∃ t, step s = .next t ∧ t.r = Config.freeValue s.draws ∧ t.draws = s.draws + 1) ∧
  (∀ s : State, s.resetLine = true → ∃ t, step s = .next t ∧ t.r = Config.freeValue s.draws ∧
    t.illegal = (Config.freeValue (s.draws + 1)).getLsbD 0 ∧ t.draws = s.draws + 2) ∧
  ∀ s t : State, step s = .next t → s.draws ≤ t.draws

/-- Whatever the free value, the draw is a NaN pattern of the lane's width, and for every NaN pattern, of either sign,
quiet or signaling, some free value draws it. The map from free values to NaN patterns is the model's (log 7).
[40_bit_reinterpret.md section 2 (R91), 00_scope.md section 3 (R13)] -/
def Obligations.EveryNaNPatternCanBeDrawn : Prop :=
  (∀ d : BitVec 32, Rule.IsNaN32 (anyNaN binary32 d)) ∧
  (∀ x : BitVec 32, Rule.IsNaN32 x → ∃ d, anyNaN binary32 d = x) ∧
  (∀ d : BitVec 64, Rule.IsNaN64 (anyNaN binary64 d)) ∧
  (∀ x : BitVec 64, Rule.IsNaN64 x → ∃ d, anyNaN binary64 d = x)

/-- On both widths bits and from_bits leave every bit where it is, from_bits(bits(x)) is x for every pattern and
bits(from_bits(u)) is u for every u of the width; the sign is the top bit, the exponent field the EW bits below it
and the mantissa field the low p bits; the magnitude is the lane with its sign bit cleared, exponent and mantissa
unchanged, NaN patterns included. The spec marks the order of the fields (R81) as derived and the cleared sign bit
(R85) as general knowledge, not in its source. [40_bit_reinterpret.md section 1 (R80, R81, R85)] -/
def Obligations.ReinterpretationAndFields : Prop :=
  (∀ x : BitVec 32, (∀ j, (bits x).testBit j = x.getLsbD j) ∧ fromBits 32 (bits x) = x ∧ sign x = x.getLsbD 31 ∧
    expField binary32 x = (x.extractLsb 30 23).toNat ∧ (frac binary32 x).toNat = (x.extractLsb 22 0).toNat ∧
    magnitude x = x &&& 0x7FFFFFFF#32 ∧ sign (magnitude x) = false ∧
    expField binary32 (magnitude x) = expField binary32 x ∧ frac binary32 (magnitude x) = frac binary32 x) ∧
  (∀ u, u < 2 ^ 32 → bits (fromBits 32 u) = u ∧ ∀ j, (fromBits 32 u).getLsbD j = u.testBit j) ∧
  (∀ x : BitVec 64, (∀ j, (bits x).testBit j = x.getLsbD j) ∧ fromBits 64 (bits x) = x ∧ sign x = x.getLsbD 63 ∧
    expField binary64 x = (x.extractLsb 62 52).toNat ∧ (frac binary64 x).toNat = (x.extractLsb 51 0).toNat ∧
    magnitude x = x &&& 0x7FFFFFFFFFFFFFFF#64 ∧ sign (magnitude x) = false ∧
    expField binary64 (magnitude x) = expField binary64 x ∧ frac binary64 (magnitude x) = frac binary64 x) ∧
  (∀ u, u < 2 ^ 64 → bits (fromBits 64 u) = u ∧ ∀ j, (fromBits 64 u).getLsbD j = u.testBit j)

/-- E(x) is the magnitude shifted right by p, in [0, 255] or [0, 2047]; e(x) is E(x) minus the bias 127 or 1023, in
[-127, 128] or [-1023, 1024]. [R83, R84] -/
def Obligations.ExponentExtraction : Prop :=
  (∀ x : BitVec 32, expField binary32 x = (x &&& 0x7FFFFFFF#32).toNat >>> 23 ∧ expField binary32 x ≤ 255 ∧
    unbiasedExp binary32 x = (expField binary32 x : Int) - 127 ∧
    -127 ≤ unbiasedExp binary32 x ∧ unbiasedExp binary32 x ≤ 128) ∧
  (∀ x : BitVec 64, expField binary64 x = (x &&& 0x7FFFFFFFFFFFFFFF#64).toNat >>> 52 ∧
    expField binary64 x ≤ 2047 ∧ unbiasedExp binary64 x = (expField binary64 x : Int) - 1023 ∧
    -1023 ≤ unbiasedExp binary64 x ∧ unbiasedExp binary64 x ≤ 1024)

/-- On both widths a lane is zero, subnormal, normal, infinity, quiet NaN or signaling NaN exactly under the condition
the table states on E, the mantissa field and its top bit; classification is a function, so every pattern falls in
exactly one class and it never faults. [R86] -/
def Obligations.ClassificationByTheTable : Prop :=
  (∀ x : BitVec 32,
    (classify binary32 x = .zero ↔ Rule.e32 x = 0 ∧ x &&& 0x007FFFFF#32 = 0#32) ∧
    (classify binary32 x = .subnormal ↔ Rule.e32 x = 0 ∧ x &&& 0x007FFFFF#32 ≠ 0#32) ∧
    (classify binary32 x = .normal ↔ 1 ≤ Rule.e32 x ∧ Rule.e32 x ≤ 254) ∧
    (classify binary32 x = .infinity ↔ Rule.e32 x = 255 ∧ x &&& 0x007FFFFF#32 = 0#32) ∧
    (classify binary32 x = .quietNaN ↔ Rule.e32 x = 255 ∧ x &&& 0x007FFFFF#32 ≠ 0#32 ∧ x.getLsbD 22 = true) ∧
    (classify binary32 x = .signalingNaN ↔ Rule.e32 x = 255 ∧ x &&& 0x007FFFFF#32 ≠ 0#32 ∧ x.getLsbD 22 = false)) ∧
  (∀ x : BitVec 64,
    (classify binary64 x = .zero ↔ Rule.e64 x = 0 ∧ x &&& 0x000FFFFFFFFFFFFF#64 = 0#64) ∧
    (classify binary64 x = .subnormal ↔ Rule.e64 x = 0 ∧ x &&& 0x000FFFFFFFFFFFFF#64 ≠ 0#64) ∧
    (classify binary64 x = .normal ↔ 1 ≤ Rule.e64 x ∧ Rule.e64 x ≤ 2046) ∧
    (classify binary64 x = .infinity ↔ Rule.e64 x = 2047 ∧ x &&& 0x000FFFFFFFFFFFFF#64 = 0#64) ∧
    (classify binary64 x = .quietNaN ↔ Rule.e64 x = 2047 ∧ x &&& 0x000FFFFFFFFFFFFF#64 ≠ 0#64 ∧ x.getLsbD 51 = true) ∧
    (classify binary64 x = .signalingNaN ↔ Rule.e64 x = 2047 ∧ x &&& 0x000FFFFFFFFFFFFF#64 ≠ 0#64 ∧ x.getLsbD 51 = false))

/-- On both widths -0 (the sign mask), +1.0, -1.0, +Inf, -Inf, the magic number 2^p, MAX, the mantissa mask and the
magnitude mask are the patterns the spec writes. [40_bit_reinterpret.md section 2 (R92), 00_scope.md section 3 (R8)] -/
def Obligations.ConstantPatterns : Prop :=
  signMask 32 = 0x80000000#32 ∧ posOne binary32 32 = 0x3F800000#32 ∧ negOne binary32 32 = 0xBF800000#32 ∧
  posInf binary32 32 = 0x7F800000#32 ∧ signMask 32 ||| posInf binary32 32 = 0xFF800000#32 ∧
  magicNumber binary32 32 = 0x4B000000#32 ∧ maxFinite binary32 32 = 0x7F7FFFFF#32 ∧
  mantissaMask binary32 32 = 0x007FFFFF#32 ∧ magMask 32 = 0x7FFFFFFF#32 ∧
  signMask 64 = 0x8000000000000000#64 ∧ posOne binary64 64 = 0x3FF0000000000000#64 ∧
  negOne binary64 64 = 0xBFF0000000000000#64 ∧ posInf binary64 64 = 0x7FF0000000000000#64 ∧
  signMask 64 ||| posInf binary64 64 = 0xFFF0000000000000#64 ∧
  magicNumber binary64 64 = 0x4330000000000000#64 ∧ maxFinite binary64 64 = 0x7FEFFFFFFFFFFFFF#64 ∧
  mantissaMask binary64 64 = 0x000FFFFFFFFFFFFF#64 ∧ magMask 64 = 0x7FFFFFFFFFFFFFFF#64

/-- The value of a finite lane is (-1)^s · f · 2^(1-bias-p) for a zero or subnormal and (-1)^s · (2^p + f) ·
2^(E-bias-p) for a normal, with s, E and f the fields of the layout, on both widths. [R87] -/
def Obligations.ValueOfALane : Prop :=
  (∀ x : BitVec 32, Rule.e32 x ≠ 255 →
    value binary32 x = (if x.getLsbD 31 then -1 else 1) *
      (if Rule.e32 x = 0 then ((x.extractLsb 22 0).toNat : ℚ) * (2 : ℚ) ^ ((1 : Int) - 127 - 23)
       else (2 ^ 23 + ((x.extractLsb 22 0).toNat : ℚ)) * (2 : ℚ) ^ ((Rule.e32 x : Int) - 127 - 23))) ∧
  (∀ x : BitVec 64, Rule.e64 x ≠ 2047 →
    value binary64 x = (if x.getLsbD 63 then -1 else 1) *
      (if Rule.e64 x = 0 then ((x.extractLsb 51 0).toNat : ℚ) * (2 : ℚ) ^ ((1 : Int) - 1023 - 52)
       else (2 ^ 52 + ((x.extractLsb 51 0).toNat : ℚ)) * (2 : ℚ) ^ ((Rule.e64 x : Int) - 1023 - 52)))

/-- mul32(a, b) is the exact 64-bit product of a and b divided by 2^32, rounded down: bits 63 to 32 of the product, so
it lies in [0, 2^32 - 1]. [40_bit_reinterpret.md section 3 (R94)] -/
def Obligations.Mul32IsTheHighHalf : Prop :=
  ∀ a b : BitVec 32, (mul32 a b).toNat = a.toNat * b.toNat / 2 ^ 32 ∧
    mul32 a b = (a.setWidth 64 * b.setWidth 64).extractLsb 63 32

/-- The index is (bits >> 17) % 128, which is bits 23 to 17; reading the seed ROM at any 7-bit index gives that entry of
SEED_TABLE; and the estimate r is the entry shifted left by 16. Which pattern supplies the bits for a subnormal is
the model's reading (log 17). [42_sqrt.md section 2 (R159), 20_memory.md section 1 (R41)] -/
def Obligations.SeedRomIsReadByBits23To17 : Prop :=
  (∀ ix : BitVec 32, seedIndex ix = ix.extractLsb 23 17 ∧ (seedIndex ix).toNat = (ix.toNat >>> 17) % 128) ∧
  (∀ (table : Vector (BitVec 16) 128) (i : BitVec 7), table[i.toNat]? = some (seedRom table i)) ∧
  (∀ (table : Vector (BitVec 16) 128) (ix : BitVec 32),
    sqrtSeed table ix = (seedRom table (seedIndex ix)) ++ 0#16)

/-- A lane is in the huge region exactly when E >= 150 (1075), in the middle one when 127 <= E <= 149 (1023 <= E <=
1074), in the small one when E <= 126 (1022); in the middle region the mask covers the low p - e mantissa bits,
between 1 and p of them. [41_rounding.md section 1 (R100)] -/
def Obligations.ExponentRegions : Prop :=
  (∀ x : BitVec 32,
    (region binary32 x = .huge ↔ 150 ≤ Rule.e32 x) ∧
    (region binary32 x = .middle ↔ 127 ≤ Rule.e32 x ∧ Rule.e32 x ≤ 149) ∧
    (region binary32 x = .small ↔ Rule.e32 x ≤ 126) ∧
    (region binary32 x = .middle → fracBits binary32 x = 150 - Rule.e32 x ∧
      1 ≤ fracBits binary32 x ∧ fracBits binary32 x ≤ 23 ∧
      fracMask binary32 x = BitVec.ofNat 32 (2 ^ (150 - Rule.e32 x) - 1))) ∧
  (∀ x : BitVec 64,
    (region binary64 x = .huge ↔ 1075 ≤ Rule.e64 x) ∧
    (region binary64 x = .middle ↔ 1023 ≤ Rule.e64 x ∧ Rule.e64 x ≤ 1074) ∧
    (region binary64 x = .small ↔ Rule.e64 x ≤ 1022) ∧
    (region binary64 x = .middle → fracBits binary64 x = 1075 - Rule.e64 x ∧
      1 ≤ fracBits binary64 x ∧ fracBits binary64 x ≤ 52 ∧
      fracMask binary64 x = BitVec.ofNat 64 (2 ^ (1075 - Rule.e64 x) - 1)))

/-- round_trunc_f32x2, x4 and x8 are decoded from their words and complete from every state: each lane of R is the lane
pseudocode of the rule, written out with its literals, applied to that lane of A; R is 0 above; B and C make no
difference; ILLEGAL is 0, nothing is raised, and nothing but the response port changes. The worked values of the
rule are included. [R101] -/
def Obligations.TruncBinary32 : Prop :=
  decode 0x00#8 = .ok .truncF32x2 ∧ decode 0x10#8 = .ok .truncF32x4 ∧ decode 0x20#8 = .ok .truncF32x8 ∧
  Rule.UnaryAnswers .truncF32x2 32 2 (fun _ x y => y = Rule.truncF32 x) ∧
  Rule.UnaryAnswers .truncF32x4 32 4 (fun _ x y => y = Rule.truncF32 x) ∧
  Rule.UnaryAnswers .truncF32x8 32 8 (fun _ x y => y = Rule.truncF32 x) ∧
  Rule.truncF32 0x4AFFFFFF#32 = 0x4AFFFFFE#32 ∧
  Rule.truncF32 0xC0300000#32 = 0xC0000000#32 ∧
  Rule.truncF32 0x80000001#32 = 0x80000000#32 ∧
  Rule.truncF32 0x7F800001#32 = 0x7F800001#32

/-- round_trunc_f64x2, x4 and x8 are decoded from their words and complete from every state: each lane of R is the lane
pseudocode of the rule, written out with its literals, applied to that lane of A; R is 0 above; B and C make no
difference; ILLEGAL is 0, nothing is raised, and nothing but the response port changes. The worked values of the
rule are included. [R102] -/
def Obligations.TruncBinary64 : Prop :=
  decode 0x08#8 = .ok .truncF64x2 ∧ decode 0x18#8 = .ok .truncF64x4 ∧ decode 0x28#8 = .ok .truncF64x8 ∧
  Rule.UnaryAnswers .truncF64x2 64 2 (fun _ x y => y = Rule.truncF64 x) ∧
  Rule.UnaryAnswers .truncF64x4 64 4 (fun _ x y => y = Rule.truncF64 x) ∧
  Rule.UnaryAnswers .truncF64x8 64 8 (fun _ x y => y = Rule.truncF64 x) ∧
  Rule.truncF64 0x432FFFFFFFFFFFFF#64 = 0x432FFFFFFFFFFFFE#64 ∧
  Rule.truncF64 0x8000000000000001#64 = 0x8000000000000000#64 ∧
  Rule.truncF64 0x4004000000000000#64 = 0x4000000000000000#64

/-- round_fract_f32x2, x4 and x8 are decoded from their words and complete from every state: each lane of R is the lane
pseudocode of the rule, written out with its literals, applied to that lane of A; R is 0 above; B and C make no
difference; ILLEGAL is 0, nothing is raised, and nothing but the response port changes. A lane with E = 255 gives
some NaN. The worked values of the rule are included. That the closed form is the IEEE-754 difference is
FractIsTheDifference. [41_rounding.md section 3 (R103: encoding, lane pseudocode, example)] -/
def Obligations.FractBinary32 : Prop :=
  decode 0x01#8 = .ok .fractF32x2 ∧ decode 0x11#8 = .ok .fractF32x4 ∧ decode 0x21#8 = .ok .fractF32x8 ∧
  Rule.UnaryAnswers .fractF32x2 32 2 (fun _ x y => Rule.FractF32 x y) ∧
  Rule.UnaryAnswers .fractF32x4 32 4 (fun _ x y => Rule.FractF32 x y) ∧
  Rule.UnaryAnswers .fractF32x8 32 8 (fun _ x y => Rule.FractF32 x y) ∧
  Rule.FractF32 0xBF800001#32 0xB4000000#32 ∧
  Rule.FractF32 0xC0300000#32 0xBF400000#32 ∧
  Rule.FractF32 0x80000000#32 0x00000000#32 ∧
  Rule.FractF32 0x80000001#32 0x80000001#32

/-- round_fract_f64x2, x4 and x8 are decoded from their words and complete from every state: each lane of R is the lane
pseudocode of the rule, written out with its literals, applied to that lane of A; R is 0 above; B and C make no
difference; ILLEGAL is 0, nothing is raised, and nothing but the response port changes. A lane with E = 2047 gives
some NaN. The worked values of the rule are included. That the closed form is the IEEE-754 difference is
FractIsTheDifference. [41_rounding.md section 3 (R104: encoding, lane pseudocode, example)] -/
def Obligations.FractBinary64 : Prop :=
  decode 0x09#8 = .ok .fractF64x2 ∧ decode 0x19#8 = .ok .fractF64x4 ∧ decode 0x29#8 = .ok .fractF64x8 ∧
  Rule.UnaryAnswers .fractF64x2 64 2 (fun _ x y => Rule.FractF64 x y) ∧
  Rule.UnaryAnswers .fractF64x4 64 4 (fun _ x y => Rule.FractF64 x y) ∧
  Rule.UnaryAnswers .fractF64x8 64 8 (fun _ x y => Rule.FractF64 x y) ∧
  Rule.FractF64 0xBFF0000000000001#64 0xBCB0000000000000#64 ∧
  Rule.FractF64 0x432FFFFFFFFFFFFF#64 0x3FE0000000000000#64 ∧
  Rule.FractF64 0x4004000000000000#64 0x3FE0000000000000#64

/-- round_floor_f32x2, x4 and x8 are decoded from their words and complete from every state: each lane of R is the lane
pseudocode of the rule, written out with its literals, applied to that lane of A; R is 0 above; B and C make no
difference; ILLEGAL is 0, nothing is raised, and nothing but the response port changes. The worked values of the
rule are included. [R105] -/
def Obligations.FloorBinary32 : Prop :=
  decode 0x02#8 = .ok .floorF32x2 ∧ decode 0x12#8 = .ok .floorF32x4 ∧ decode 0x22#8 = .ok .floorF32x8 ∧
  Rule.UnaryAnswers .floorF32x2 32 2 (fun _ x y => y = Rule.floorF32 x) ∧
  Rule.UnaryAnswers .floorF32x4 32 4 (fun _ x y => y = Rule.floorF32 x) ∧
  Rule.UnaryAnswers .floorF32x8 32 8 (fun _ x y => y = Rule.floorF32 x) ∧
  Rule.floorF32 0xBF800001#32 = 0xC0000000#32 ∧
  Rule.floorF32 0xCAFFFFFF#32 = 0xCB000000#32 ∧
  Rule.floorF32 0xBF000000#32 = 0xBF800000#32 ∧
  Rule.floorF32 0x80000001#32 = 0xBF800000#32 ∧
  Rule.floorF32 0x80000000#32 = 0x80000000#32 ∧
  Rule.floorF32 0x00000000#32 = 0x00000000#32

/-- round_floor_f64x2, x4 and x8 are decoded from their words and complete from every state: each lane of R is the lane
pseudocode of the rule, written out with its literals, applied to that lane of A; R is 0 above; B and C make no
difference; ILLEGAL is 0, nothing is raised, and nothing but the response port changes. The worked values of the
rule are included. [R106] -/
def Obligations.FloorBinary64 : Prop :=
  decode 0x0A#8 = .ok .floorF64x2 ∧ decode 0x1A#8 = .ok .floorF64x4 ∧ decode 0x2A#8 = .ok .floorF64x8 ∧
  Rule.UnaryAnswers .floorF64x2 64 2 (fun _ x y => y = Rule.floorF64 x) ∧
  Rule.UnaryAnswers .floorF64x4 64 4 (fun _ x y => y = Rule.floorF64 x) ∧
  Rule.UnaryAnswers .floorF64x8 64 8 (fun _ x y => y = Rule.floorF64 x) ∧
  Rule.floorF64 0xC32FFFFFFFFFFFFF#64 = 0xC330000000000000#64 ∧
  Rule.floorF64 0x8000000000000001#64 = 0xBFF0000000000000#64 ∧
  Rule.floorF64 0xC004000000000000#64 = 0xC008000000000000#64

/-- round_ceil_f32x2, x4 and x8 are decoded from their words and complete from every state: each lane of R is the lane
pseudocode of the rule, written out with its literals, applied to that lane of A; R is 0 above; B and C make no
difference; ILLEGAL is 0, nothing is raised, and nothing but the response port changes. The worked values of the
rule are included. [R107] -/
def Obligations.CeilBinary32 : Prop :=
  decode 0x03#8 = .ok .ceilF32x2 ∧ decode 0x13#8 = .ok .ceilF32x4 ∧ decode 0x23#8 = .ok .ceilF32x8 ∧
  Rule.UnaryAnswers .ceilF32x2 32 2 (fun _ x y => y = Rule.ceilF32 x) ∧
  Rule.UnaryAnswers .ceilF32x4 32 4 (fun _ x y => y = Rule.ceilF32 x) ∧
  Rule.UnaryAnswers .ceilF32x8 32 8 (fun _ x y => y = Rule.ceilF32 x) ∧
  Rule.ceilF32 0x4AFFFFFF#32 = 0x4B000000#32 ∧
  Rule.ceilF32 0x3F000000#32 = 0x3F800000#32 ∧
  Rule.ceilF32 0x00000001#32 = 0x3F800000#32 ∧
  Rule.ceilF32 0x80000000#32 = 0x80000000#32 ∧
  Rule.ceilF32 0x00000000#32 = 0x00000000#32

/-- round_ceil_f64x2, x4 and x8 are decoded from their words and complete from every state: each lane of R is the lane
pseudocode of the rule, written out with its literals, applied to that lane of A; R is 0 above; B and C make no
difference; ILLEGAL is 0, nothing is raised, and nothing but the response port changes. The worked values of the
rule are included. [R108] -/
def Obligations.CeilBinary64 : Prop :=
  decode 0x0B#8 = .ok .ceilF64x2 ∧ decode 0x1B#8 = .ok .ceilF64x4 ∧ decode 0x2B#8 = .ok .ceilF64x8 ∧
  Rule.UnaryAnswers .ceilF64x2 64 2 (fun _ x y => y = Rule.ceilF64 x) ∧
  Rule.UnaryAnswers .ceilF64x4 64 4 (fun _ x y => y = Rule.ceilF64 x) ∧
  Rule.UnaryAnswers .ceilF64x8 64 8 (fun _ x y => y = Rule.ceilF64 x) ∧
  Rule.ceilF64 0x432FFFFFFFFFFFFF#64 = 0x4330000000000000#64 ∧
  Rule.ceilF64 0x4320000000000001#64 = 0x4320000000000002#64 ∧
  Rule.ceilF64 0xBFE0000000000000#64 = 0x8000000000000000#64 ∧
  Rule.ceilF64 0x4004000000000000#64 = 0x4008000000000000#64

/-- round_round_f32x2, x4 and x8 are decoded from their words and complete from every state: each lane of R is the lane
pseudocode of the rule, written out with its literals, applied to that lane of A; R is 0 above; B and C make no
difference; ILLEGAL is 0, nothing is raised, and nothing but the response port changes. The worked values of the
rule are included. [R109] -/
def Obligations.RoundBinary32 : Prop :=
  decode 0x04#8 = .ok .roundF32x2 ∧ decode 0x14#8 = .ok .roundF32x4 ∧ decode 0x24#8 = .ok .roundF32x8 ∧
  Rule.UnaryAnswers .roundF32x2 32 2 (fun _ x y => y = Rule.roundF32 x) ∧
  Rule.UnaryAnswers .roundF32x4 32 4 (fun _ x y => y = Rule.roundF32 x) ∧
  Rule.UnaryAnswers .roundF32x8 32 8 (fun _ x y => y = Rule.roundF32 x) ∧
  Rule.roundF32 0x4AFFFFFF#32 = 0x4B000000#32 ∧
  Rule.roundF32 0x4A800001#32 = 0x4A800000#32 ∧
  Rule.roundF32 0x3FC00000#32 = 0x40000000#32 ∧
  Rule.roundF32 0xC0200000#32 = 0xC0000000#32 ∧
  Rule.roundF32 0x80000001#32 = 0x80000000#32

/-- round_round_f64x2, x4 and x8 are decoded from their words and complete from every state: each lane of R is the lane
pseudocode of the rule, written out with its literals, applied to that lane of A; R is 0 above; B and C make no
difference; ILLEGAL is 0, nothing is raised, and nothing but the response port changes. The worked values of the
rule are included. [R110] -/
def Obligations.RoundBinary64 : Prop :=
  decode 0x0C#8 = .ok .roundF64x2 ∧ decode 0x1C#8 = .ok .roundF64x4 ∧ decode 0x2C#8 = .ok .roundF64x8 ∧
  Rule.UnaryAnswers .roundF64x2 64 2 (fun _ x y => y = Rule.roundF64 x) ∧
  Rule.UnaryAnswers .roundF64x4 64 4 (fun _ x y => y = Rule.roundF64 x) ∧
  Rule.UnaryAnswers .roundF64x8 64 8 (fun _ x y => y = Rule.roundF64 x) ∧
  Rule.roundF64 0x432FFFFFFFFFFFFF#64 = 0x4330000000000000#64 ∧
  Rule.roundF64 0x4320000000000001#64 = 0x4320000000000000#64 ∧
  Rule.roundF64 0xC32FFFFFFFFFFFFF#64 = 0xC330000000000000#64 ∧
  Rule.roundF64 0x4004000000000000#64 = 0x4000000000000000#64

/-- round_sqrt_f32x2, x4 and x8 are decoded from their words and complete from every state: +Inf and both zeros are
returned, NaN and every negative lane give some NaN, and a positive finite lane gives, under correctly_rounded, the
result of the integer algorithm of R155; under faithful, the model's lower or upper root (characterised by
SqrtFaithfulNeighbours); under sign_only, a pattern with sign bit 0. R is 0 above; B and C make no difference;
nothing but the response port changes. [42_sqrt.md section 1 (R150, R151, R155)] -/
def Obligations.SqrtBinary32 : Prop :=
  decode 0x05#8 = .ok .sqrtF32x2 ∧ decode 0x15#8 = .ok .sqrtF32x4 ∧ decode 0x25#8 = .ok .sqrtF32x8 ∧
  Rule.UnaryAnswers .sqrtF32x2 32 2 Rule.SqrtF32 ∧
  Rule.UnaryAnswers .sqrtF32x4 32 4 Rule.SqrtF32 ∧
  Rule.UnaryAnswers .sqrtF32x8 32 8 Rule.SqrtF32

/-- round_sqrt_f64x2, x4 and x8 are decoded from their words and complete from every state: +Inf and both zeros are
returned, NaN and every negative lane give some NaN, and a positive finite lane gives, under correctly_rounded, the
result of the integer algorithm of R155; under faithful, the model's lower or upper root (characterised by
SqrtFaithfulNeighbours); under sign_only, a pattern with sign bit 0. R is 0 above; B and C make no difference;
nothing but the response port changes. [42_sqrt.md section 1 (R150, R154, R155)] -/
def Obligations.SqrtBinary64 : Prop :=
  decode 0x0D#8 = .ok .sqrtF64x2 ∧ decode 0x1D#8 = .ok .sqrtF64x4 ∧ decode 0x2D#8 = .ok .sqrtF64x8 ∧
  Rule.UnaryAnswers .sqrtF64x2 64 2 Rule.SqrtF64 ∧
  Rule.UnaryAnswers .sqrtF64x4 64 4 Rule.SqrtF64 ∧
  Rule.UnaryAnswers .sqrtF64x8 64 8 Rule.SqrtF64

/-- round_fma_f32x2, x4 and x8 are decoded from their words and complete from every state: the special cases (NaN
operands, Inf·0, Inf - Inf, infinities, exact zeros and their sign) are those of the rule in its order, and
otherwise the lane is a member of FmaSet_32 of the exact integer value of R182, over the model's RNE_32 and faithful
set. R is 0 above and nothing but the response port changes. [43_fma.md section 1 (R180, R181, R182)] -/
def Obligations.FmaBinary32 : Prop :=
  decode 0x06#8 = .ok .fmaF32x2 ∧ decode 0x16#8 = .ok .fmaF32x4 ∧ decode 0x26#8 = .ok .fmaF32x8 ∧
  Rule.TernaryAnswers .fmaF32x2 32 2 Rule.FmaF32 ∧
  Rule.TernaryAnswers .fmaF32x4 32 4 Rule.FmaF32 ∧
  Rule.TernaryAnswers .fmaF32x8 32 8 Rule.FmaF32

/-- On both widths, for every finite lane the result of floor is finite and its exact rational value is the greatest
integer not above the exact value of the lane. [41_rounding.md section 4 (R105, R106), 41_rounding.md section 7
(R114 c)] -/
def Obligations.FloorIsTheIntegerFloor : Prop :=
  (∀ x : BitVec 32, isFinite binary32 x = true →
    isFinite binary32 (floor binary32 x) = true ∧ value binary32 (floor binary32 x) = (⌊value binary32 x⌋ : ℚ)) ∧
  (∀ x : BitVec 64, isFinite binary64 x = true →
    isFinite binary64 (floor binary64 x) = true ∧ value binary64 (floor binary64 x) = (⌊value binary64 x⌋ : ℚ))

/-- On both widths, for every finite lane the result of ceil is finite and its exact rational value is the least integer
not below the exact value of the lane. [41_rounding.md section 5 (R107, R108), 41_rounding.md section 7 (R114 c)] -/
def Obligations.CeilIsTheIntegerCeiling : Prop :=
  (∀ x : BitVec 32, isFinite binary32 x = true →
    isFinite binary32 (ceil binary32 x) = true ∧ value binary32 (ceil binary32 x) = (⌈value binary32 x⌉ : ℚ)) ∧
  (∀ x : BitVec 64, isFinite binary64 x = true →
    isFinite binary64 (ceil binary64 x) = true ∧ value binary64 (ceil binary64 x) = (⌈value binary64 x⌉ : ℚ))

/-- On both widths, for every finite lane the result of trunc is finite and its exact rational value is the floor of a
non-negative value and the ceiling of a negative one. [41_rounding.md section 2 (R101, R102)] -/
def Obligations.TruncIsTheIntegerPartTowardZero : Prop :=
  (∀ x : BitVec 32, isFinite binary32 x = true →
    isFinite binary32 (trunc binary32 x) = true ∧
    value binary32 (trunc binary32 x) = (if 0 ≤ value binary32 x then (⌊value binary32 x⌋ : ℚ) else (⌈value binary32 x⌉ : ℚ))) ∧
  (∀ x : BitVec 64, isFinite binary64 x = true →
    isFinite binary64 (trunc binary64 x) = true ∧
    value binary64 (trunc binary64 x) = (if 0 ≤ value binary64 x then (⌊value binary64 x⌋ : ℚ) else (⌈value binary64 x⌉ : ℚ)))

/-- On both widths, for every finite lane the result of round is finite and its exact value is an integer at most 1/2
away from the lane's value, and an even one when it is exactly 1/2 away. [41_rounding.md section 6 (R109, R110)] -/
def Obligations.RoundIsTheNearestIntegerTiesToEven : Prop :=
  (∀ x : BitVec 32, isFinite binary32 x = true →
    ∃ n : Int, isFinite binary32 (roundEven binary32 x) = true ∧ value binary32 (roundEven binary32 x) = (n : ℚ) ∧
      |value binary32 x - (n : ℚ)| ≤ 1 / 2 ∧ (|value binary32 x - (n : ℚ)| = 1 / 2 → n % 2 = 0)) ∧
  (∀ x : BitVec 64, isFinite binary64 x = true →
    ∃ n : Int, isFinite binary64 (roundEven binary64 x) = true ∧ value binary64 (roundEven binary64 x) = (n : ℚ) ∧
      |value binary64 x - (n : ℚ)| ≤ 1 / 2 ∧ (|value binary64 x - (n : ℚ)| = 1 / 2 → n % 2 = 0))

/-- On both widths and for every pattern, applying trunc, floor, ceil or round to its own result returns that result bit
for bit. [41_rounding.md section 7 (R114 a)] -/
def Obligations.RoundingIsIdempotent : Prop :=
  (∀ x : BitVec 32, trunc binary32 (trunc binary32 x) = trunc binary32 x ∧ floor binary32 (floor binary32 x) = floor binary32 x ∧
    ceil binary32 (ceil binary32 x) = ceil binary32 x ∧ roundEven binary32 (roundEven binary32 x) = roundEven binary32 x) ∧
  (∀ x : BitVec 64, trunc binary64 (trunc binary64 x) = trunc binary64 x ∧ floor binary64 (floor binary64 x) = floor binary64 x ∧
    ceil binary64 (ceil binary64 x) = ceil binary64 x ∧ roundEven binary64 (roundEven binary64 x) = roundEven binary64 x)

/-- On both widths and for every finite lane, the results of trunc, floor, ceil and round have the lane's sign bit,
zeros included, and fract is +0 or has it. [41_rounding.md section 7 (R114 e, f)] -/
def Obligations.RoundingKeepsTheSignBit : Prop :=
  (∀ x : BitVec 32, isFinite binary32 x = true →
    sign (trunc binary32 x) = sign x ∧ sign (floor binary32 x) = sign x ∧ sign (ceil binary32 x) = sign x ∧
    sign (roundEven binary32 x) = sign x ∧ ∀ d, fract binary32 d x = 0#32 ∨ sign (fract binary32 d x) = sign x) ∧
  (∀ x : BitVec 64, isFinite binary64 x = true →
    sign (trunc binary64 x) = sign x ∧ sign (floor binary64 x) = sign x ∧ sign (ceil binary64 x) = sign x ∧
    sign (roundEven binary64 x) = sign x ∧ ∀ d, fract binary64 d x = 0#64 ∨ sign (fract binary64 d x) = sign x)

/-- In the middle region with some fractional bit set, (x + m) & ~m is (x & ~m) + (1 << (p - e)), on both widths; the
carry never reaches the sign bit and never makes an all-ones exponent field. [41_rounding.md section 7 (R112),
40_bit_reinterpret.md section 3 (R93)] -/
def Obligations.IncrementIsOneIntegerStep : Prop :=
  (∀ x : BitVec 32, region binary32 x = .middle → x &&& fracMask binary32 x ≠ 0#32 →
    (x + fracMask binary32 x) &&& ~~~ fracMask binary32 x =
      (x &&& ~~~ fracMask binary32 x) + (1#32 <<< fracBits binary32 x) ∧
    sign ((x + fracMask binary32 x) &&& ~~~ fracMask binary32 x) = sign x ∧
    expField binary32 ((x + fracMask binary32 x) &&& ~~~ fracMask binary32 x) < 255) ∧
  (∀ x : BitVec 64, region binary64 x = .middle → x &&& fracMask binary64 x ≠ 0#64 →
    (x + fracMask binary64 x) &&& ~~~ fracMask binary64 x =
      (x &&& ~~~ fracMask binary64 x) + (1#64 <<< fracBits binary64 x) ∧
    sign ((x + fracMask binary64 x) &&& ~~~ fracMask binary64 x) = sign x ∧
    expField binary64 ((x + fracMask binary64 x) &&& ~~~ fracMask binary64 x) < 2047)

/-- On both widths and for every pattern, (|x| + 2^p) - 2^p in the lane's own format rounded to nearest even, with the
sign put back and the pass-through and zero regions tested first, is the result of round. [41_rounding.md section 7
(R111)] -/
def Obligations.MagicNumberRoundIsRound : Prop :=
  (∀ (d x : BitVec 32), roundByMagic binary32 d x = roundEven binary32 x) ∧
  (∀ (d x : BitVec 64), roundByMagic binary64 d x = roundEven binary64 x)

/-- On both widths and for every pattern, fract is the IEEE-754 difference of x and the result of trunc, rounded to
nearest even; where that is a NaN both are the same draw. [41_rounding.md section 3 (R103, R104), 41_rounding.md
section 7 (R113)] -/
def Obligations.FractIsTheDifference : Prop :=
  (∀ (d x : BitVec 32), fract binary32 d x = fractDifference binary32 d x) ∧
  (∀ (d x : BitVec 64), fract binary64 d x = fractDifference binary64 d x)

/-- On both widths, the IEEE-754 sum of trunc(x) and fract(x) is x bit for bit for every finite lane except -0, where it
is +0. [41_rounding.md section 7 (R114 b), 90_conflicts.md C4] -/
def Obligations.TruncPlusFractIsTheLane : Prop :=
  (∀ (d d' x : BitVec 32), isFinite binary32 x = true → x ≠ signMask 32 →
    fpAdd binary32 d' (trunc binary32 x) (fract binary32 d x) = x) ∧
  (∀ (d d' x : BitVec 64), isFinite binary64 x = true → x ≠ signMask 64 →
    fpAdd binary64 d' (trunc binary64 x) (fract binary64 d x) = x) ∧
  (∀ d d' : BitVec 32, fpAdd binary32 d' (trunc binary32 (signMask 32)) (fract binary32 d (signMask 32)) = 0#32) ∧
  (∀ d d' : BitVec 64, fpAdd binary64 d' (trunc binary64 (signMask 64)) (fract binary64 d (signMask 64)) = 0#64)

/-- On both widths, RNE of decode(x) is x bit for bit for every finite nonzero lane, and its exact value counts as
representable. [40_bit_reinterpret.md section 2 (R88, R89)] -/
def Obligations.RneReturnsRepresentableValuesUnchanged : Prop :=
  (∀ x : BitVec 32, isFinite binary32 x = true → isZero x = false →
    rne binary32 32 (decodeLane binary32 x) = x ∧ representable binary32 (decodeLane binary32 x) = true) ∧
  (∀ x : BitVec 64, isFinite binary64 x = true → isZero x = false →
    rne binary64 64 (decodeLane binary64 x) = x ∧ representable binary64 (decodeLane binary64 x) = true)

/-- On both widths and for every exact nonzero value, the RNE result is one of the two members RD and RU of the faithful
set; when the value is representable both are the RNE result; otherwise RU is the next pattern after RD.
[40_bit_reinterpret.md section 2 (R90)] -/
def Obligations.RneIsAMemberOfTheFaithfulSet : Prop :=
  (∀ v : Exact, v.M ≠ 0 → rne binary32 32 v ∈ faithful binary32 32 v ∧
    (representable binary32 v = true → faithful binary32 32 v = [rne binary32 32 v, rne binary32 32 v]) ∧
    (representable binary32 v = false → faithfulUp binary32 v = faithfulDown binary32 v + 1)) ∧
  (∀ v : Exact, v.M ≠ 0 → rne binary64 64 v ∈ faithful binary64 64 v ∧
    (representable binary64 v = true → faithful binary64 64 v = [rne binary64 64 v, rne binary64 64 v]) ∧
    (representable binary64 v = false → faithfulUp binary64 v = faithfulDown binary64 v + 1))

/-- On both widths and for every exact nonzero value: the RNE result is finite exactly when the magnitude is below MAX
plus half a unit; then no finite value is nearer, and when another is as near the result's last mantissa bit is 0;
otherwise it is the infinity of the value's sign. [40_bit_reinterpret.md section 2 (R89)] -/
def Obligations.RneIsNearestTiesToEven : Prop :=
  (∀ v : Exact, v.M ≠ 0 →
    (isFinite binary32 (rne binary32 32 v) = true ↔
      |v.toRat| < (2 * 2 ^ (23 + 1) - 1 : ℚ) / 2 * (2 : ℚ) ^ ((127 : Int) - 23)) ∧
    (isFinite binary32 (rne binary32 32 v) = true → ∀ z : BitVec 32, isFinite binary32 z = true →
      |v.toRat - value binary32 (rne binary32 32 v)| ≤ |v.toRat - value binary32 z| ∧
      (|v.toRat - value binary32 (rne binary32 32 v)| = |v.toRat - value binary32 z| → value binary32 z ≠ value binary32 (rne binary32 32 v) →
        (rne binary32 32 v).getLsbD 0 = false)) ∧
    (isFinite binary32 (rne binary32 32 v) = false → rne binary32 32 v = if v.s then signMask 32 ||| posInf binary32 32 else posInf binary32 32)) ∧
  (∀ v : Exact, v.M ≠ 0 →
    (isFinite binary64 (rne binary64 64 v) = true ↔
      |v.toRat| < (2 * 2 ^ (52 + 1) - 1 : ℚ) / 2 * (2 : ℚ) ^ ((1023 : Int) - 52)) ∧
    (isFinite binary64 (rne binary64 64 v) = true → ∀ z : BitVec 64, isFinite binary64 z = true →
      |v.toRat - value binary64 (rne binary64 64 v)| ≤ |v.toRat - value binary64 z| ∧
      (|v.toRat - value binary64 (rne binary64 64 v)| = |v.toRat - value binary64 z| → value binary64 z ≠ value binary64 (rne binary64 64 v) →
        (rne binary64 64 v).getLsbD 0 = false)) ∧
    (isFinite binary64 (rne binary64 64 v) = false → rne binary64 64 v = if v.s then signMask 64 ||| posInf binary64 64 else posInf binary64 64))

/-- On both widths and for every exact nonzero value v of either sign, the faithful set has two members with v's sign
bit: RD is finite and the largest finite magnitude not above |v|; RU is the smallest finite magnitude not below |v|,
or the infinity when every finite magnitude is below |v|. And v is representable in the model's sense exactly when
some finite lane has its value. [40_bit_reinterpret.md section 2 (R90)] -/
def Obligations.FaithfulSetIsTheTwoNeighbours : Prop :=
  (∀ v : Exact, v.M ≠ 0 →
    (∃ lo hi : BitVec 32, faithful binary32 32 v = [lo, hi] ∧ sign lo = v.s ∧ sign hi = v.s ∧
      Rule.IsRD binary32 |v.toRat| lo ∧ Rule.IsRU binary32 |v.toRat| hi) ∧
    (representable binary32 v = true ↔ ∃ z : BitVec 32, isFinite binary32 z = true ∧ value binary32 z = v.toRat)) ∧
  (∀ v : Exact, v.M ≠ 0 →
    (∃ lo hi : BitVec 64, faithful binary64 64 v = [lo, hi] ∧ sign lo = v.s ∧ sign hi = v.s ∧
      Rule.IsRD binary64 |v.toRat| lo ∧ Rule.IsRU binary64 |v.toRat| hi) ∧
    (representable binary64 v = true ↔ ∃ z : BitVec 64, isFinite binary64 z = true ∧ value binary64 z = v.toRat))

/-- For finite lanes a, b and c the exact value that fma rounds is the rational value(a)*value(b) + value(c), with M = 0
exactly when that is 0; and when it is not 0 and is the value of a finite binary32 lane z, the fma lane is z under
correctly_rounded, cr_normal and faithful, whatever the free choice. [43_fma.md section 1 (R181, R182)] -/
def Obligations.FmaExactResultsUnderEveryAccuracy : Prop :=
  ∀ a b c : BitVec 32, isFinite binary32 a = true → isFinite binary32 b = true → isFinite binary32 c = true →
    (fmaExact binary32 a b c).toRat = value binary32 a * value binary32 b + value binary32 c ∧
    ((fmaExact binary32 a b c).M = 0 ↔ value binary32 a * value binary32 b + value binary32 c = 0) ∧
    ∀ (acc : FmaAcc) (d z : BitVec 32), value binary32 a * value binary32 b + value binary32 c ≠ 0 →
      isFinite binary32 z = true → value binary32 z = value binary32 a * value binary32 b + value binary32 c →
      fma binary32 acc d a b c = z

/-- For finite lanes a, b and c with value(a)*value(b) + value(c) not 0, and whatever the free choice: under
correctly_rounded the fma lane is RNE of the exact value; under cr_normal it is when the magnitude is at least
2^-126; and under every setting, whatever the magnitude, it is in the faithful set of the exact value. That the
exact value is that rational is FmaExactResultsUnderEveryAccuracy. [43_fma.md section 1 (R181, R182),
40_bit_reinterpret.md section 2 (R89, R90)] -/
def Obligations.FmaCorrectlyRoundedInTheNormalRange : Prop :=
  ∀ d a b c : BitVec 32, isFinite binary32 a = true → isFinite binary32 b = true → isFinite binary32 c = true →
    value binary32 a * value binary32 b + value binary32 c ≠ 0 →
    fma binary32 .correctlyRounded d a b c = rne binary32 32 (fmaExact binary32 a b c) ∧
    ((2 : ℚ) ^ (-126 : Int) ≤ |value binary32 a * value binary32 b + value binary32 c| →
      fma binary32 .crNormal d a b c = rne binary32 32 (fmaExact binary32 a b c)) ∧
    ∀ acc : FmaAcc, fma binary32 acc d a b c ∈ faithful binary32 32 (fmaExact binary32 a b c)

/-- On both widths and for every positive finite nonzero lane, the correctly rounded root is a positive normal, and the
value of the lane lies strictly between the squares of the midpoints of that root with its two neighbours: it is the
nearest representable value and no tie occurs. [42_sqrt.md section 1 (R152, R155)] -/
def Obligations.SqrtIsTheNearestRepresentableRoot : Prop :=
  (∀ x : BitVec 32, isFinite binary32 x = true → sign x = false → isZero x = false →
    classify binary32 (sqrtCR binary32 x) = .normal ∧ sign (sqrtCR binary32 x) = false ∧
    Rule.SqrtNearest binary32 x (sqrtCR binary32 x)) ∧
  (∀ x : BitVec 64, isFinite binary64 x = true → sign x = false → isZero x = false →
    classify binary64 (sqrtCR binary64 x) = .normal ∧ sign (sqrtCR binary64 x) = false ∧
    Rule.SqrtNearest binary64 x (sqrtCR binary64 x))

/-- On both widths and for every positive finite nonzero lane x: the lower root is the positive normal y with value(y)^2
<= value(x) < value(y+1)^2; the upper root is the positive normal y with value(y-1)^2 < value(x) <= value(y)^2; and
when the root is itself representable, correctly_rounded and both faithful choices return it. [42_sqrt.md section 1
(R152), 40_bit_reinterpret.md section 2 (R90)] -/
def Obligations.SqrtFaithfulNeighbours : Prop :=
  (∀ x : BitVec 32, isFinite binary32 x = true → sign x = false → isZero x = false →
    Rule.SqrtLower binary32 x (sqrtDown binary32 x) ∧ Rule.SqrtUpper binary32 x (sqrtUp binary32 x) ∧
    (∀ y : BitVec 32, isFinite binary32 y = true → sign y = false → value binary32 y ^ 2 = value binary32 x →
      sqrtCR binary32 x = y ∧ sqrtDown binary32 x = y ∧ sqrtUp binary32 x = y)) ∧
  (∀ x : BitVec 64, isFinite binary64 x = true → sign x = false → isZero x = false →
    Rule.SqrtLower binary64 x (sqrtDown binary64 x) ∧ Rule.SqrtUpper binary64 x (sqrtUp binary64 x) ∧
    (∀ y : BitVec 64, isFinite binary64 y = true → sign y = false → value binary64 y ^ 2 = value binary64 x →
      sqrtCR binary64 x = y ∧ sqrtDown binary64 x = y ∧ sqrtUp binary64 x = y))
end

