-- ==== Sys2Proof/Laws/Bits.lean ====
section
/-! SUPPORT. The bit reinterpretation layer's own facts: masks and fields as numbers, the NaN draw, bit_length and
the integer square root. -/

namespace Sys2Proof.Machine

/-- The sign mask as a number. -/
theorem signMask_toNat (w : Nat) (hw : 0 < w) : (signMask w).toNat = 2 ^ (w - 1) := by
  rw [signMask, BitVec.toNat_ofNat, Nat.mod_eq_of_lt]
  exact Nat.pow_lt_pow_right (by decide) (by omega)

/-- Bit i of the sign mask. -/
theorem signMask_getLsbD (w i : Nat) : (signMask w).getLsbD i = (decide (i < w) && decide (i = w - 1)) := by
  rw [signMask, BitVec.getLsbD_ofNat, Nat.testBit_two_pow]
  by_cases h : i = w - 1
  · simp [h]
  · have h' : ¬ w - 1 = i := fun e => h e.symm
    simp [h, h']

/-- The magnitude as a number: the low W - 1 bits (R85). -/
theorem magnitude_toNat {w : Nat} (x : BitVec w) : (magnitude x).toNat = x.toNat % 2 ^ (w - 1) := by
  apply Nat.eq_of_testBit_eq
  intro i
  rw [Nat.testBit_mod_two_pow, BitVec.testBit_toNat, BitVec.testBit_toNat, magnitude, magMask,
    BitVec.getLsbD_and, BitVec.getLsbD_not, signMask_getLsbD]
  rcases Nat.lt_or_ge i w with h | h
  · by_cases h' : i = w - 1
    · subst h'
      simp [h]
    · have : i < w - 1 := by omega
      simp [h, h', this]
  · have : ¬ i < w - 1 := by omega
    simp [this, BitVec.getLsbD_of_ge x i h]

/-- The exponent field as a number (R83). -/
theorem expField_eq (F : Fmt) {w : Nat} (x : BitVec w) :
    expField F x = x.toNat % 2 ^ (w - 1) / 2 ^ F.p := by
  rw [expField, magnitude_toNat, Nat.shiftRight_eq_div_pow]

/-- The mantissa field as a number (R81), in a lane of the format's width. -/
theorem frac_toNat (F : Fmt) {w : Nat} (hw : F.p ≤ w) (x : BitVec w) :
    (frac F x).toNat = x.toNat % 2 ^ F.p := by
  have hlt : 2 ^ F.p - 1 < 2 ^ w :=
    lt_of_lt_of_le (Nat.sub_lt (Nat.two_pow_pos _) Nat.one_pos) (Nat.pow_le_pow_right (by decide) hw)
  rw [frac, mantissaMask, BitVec.toNat_and, BitVec.toNat_ofNat, Nat.mod_eq_of_lt hlt, Nat.and_two_pow_sub_one_eq_mod]

/-- A lane as a number: sign, exponent field and mantissa field (R81). -/
theorem lane_decompose (F : Fmt) {w : Nat} (hw : w = 1 + F.ew + F.p) (x : BitVec w) :
    x.toNat = (sign x).toNat * 2 ^ (w - 1) + expField F x * 2 ^ F.p + (frac F x).toNat := by
  have hp : F.p ≤ w := by omega
  have hmod : x.toNat % 2 ^ (w - 1) % 2 ^ F.p = x.toNat % 2 ^ F.p :=
    Nat.mod_mod_of_dvd _ (Nat.pow_dvd_pow 2 (by omega))
  have hlow := Nat.div_add_mod' (x.toNat % 2 ^ (w - 1)) (2 ^ F.p)
  have hhigh := Nat.div_add_mod' x.toNat (2 ^ (w - 1))
  have hdiv : x.toNat / 2 ^ (w - 1) = (sign x).toNat := by
    have hlt : x.toNat / 2 ^ (w - 1) < 2 := by
      apply Nat.div_lt_of_lt_mul
      have := x.isLt
      rw [← Nat.pow_succ]
      rwa [show (w - 1).succ = w by omega]
    rw [sign, BitVec.msb_eq_decide]
    by_cases h : 2 ^ (w - 1) ≤ x.toNat
    · have := Nat.div_pos h (Nat.two_pow_pos (w - 1))
      simp [h]; omega
    · simp [h]
      exact Nat.lt_of_not_le h
  rw [expField_eq, frac_toNat F hp, ← hmod, ← hdiv]
  omega

/-- The exponent field fits in EW bits (R83). -/
theorem expField_le (F : Fmt) {w : Nat} (hw : w = 1 + F.ew + F.p) (x : BitVec w) : expField F x ≤ F.expOnes := by
  have h : x.toNat % 2 ^ (w - 1) < 2 ^ F.p * 2 ^ F.ew := by
    rw [← Nat.pow_add, show F.p + F.ew = w - 1 by omega]
    exact Nat.mod_lt _ (Nat.two_pow_pos _)
  have := Nat.div_lt_of_lt_mul h
  rw [expField_eq, Fmt.expOnes]
  omega

/-- A mantissa field of 0 as a number. -/
theorem frac_eq_zero_iff (F : Fmt) {w : Nat} (x : BitVec w) : frac F x = 0 ↔ (frac F x).toNat = 0 := by
  constructor
  · intro h; rw [h]; simp
  · intro h; apply BitVec.eq_of_toNat_eq; simpa using h

/-- `2^(L-1) <= M < 2^L` (R89). -/
theorem bitLength_bounds (M : Nat) (h : M ≠ 0) : 2 ^ (bitLength M - 1) ≤ M ∧ M < 2 ^ bitLength M := by
  rw [bitLength, if_neg h]
  exact ⟨Nat.log2_self_le h, (Nat.log2_lt h).mp (Nat.lt_succ_self _)⟩

/-- bit_length is the L of its bounds. -/
theorem bitLength_unique (M L : Nat) (h1 : 2 ^ L ≤ M) (h2 : M < 2 ^ (L + 1)) : bitLength M = L + 1 := by
  have hM : M ≠ 0 := by
    have := Nat.two_pow_pos L
    omega
  rw [bitLength, if_neg hM, (Nat.log2_eq_iff hM).mpr ⟨h1, h2⟩]

/-- The bit-by-bit square root keeps `root² <= n` and closes in on n by halving the gap. -/
theorem isqrt_bounds (n : Nat) (fuel root : Nat) (hlow : root * root ≤ n)
    (hhigh : n < (root + 2 ^ fuel) * (root + 2 ^ fuel)) :
    isqrt n fuel root * isqrt n fuel root ≤ n ∧ n < (isqrt n fuel root + 1) * (isqrt n fuel root + 1) := by
  induction fuel generalizing root with
  | zero => exact ⟨hlow, by simpa [isqrt] using hhigh⟩
  | succ fuel ih =>
    rw [isqrt]
    split
    · rename_i h
      apply ih _ h
      rw [Nat.add_assoc, ← Nat.two_mul, ← Nat.pow_succ']
      exact hhigh
    · rename_i h
      exact ih _ hlow (Nat.lt_of_not_le h)

/-- isqrt is the floor of the square root (R155). -/
theorem isqrt_eq_sqrt (n fuel : Nat) (h : n < 4 ^ fuel) : isqrt n fuel 0 = Nat.sqrt n := by
  have hb := isqrt_bounds n fuel 0 (by omega) (by
    rw [Nat.zero_add, ← Nat.mul_pow]; exact h)
  exact (Nat.eq_sqrt.mpr hb)

end Sys2Proof.Machine
end

