-- ==== Sys2Proof/Laws/Operands.lean ====
section
/-! SUPPORT. Reading a lane back from a packed bus, and the bits above the lanes (R26, R27). -/

namespace Sys2Proof.Machine

@[simp] theorem lane_getLsbD (w : Nat) (v : Bus) (i j : Nat) :
    (lane w v i).getLsbD j = (decide (j < w) && v.getLsbD (w * i + j)) := by
  simp [lane]

/-- Bit j of a packed bus is bit `j % w` of the value of lane `j / w`, below lane n, and 0 above. -/
theorem packLanes_getLsbD (w : Nat) (hw : 0 < w) (f : Nat → BitVec w) (n j : Nat) (hn : w * n ≤ 512) :
    (packLanes w f n).getLsbD j = (decide (j < w * n) && (f (j / w)).getLsbD (j % w)) := by
  induction n with
  | zero => simp [packLanes]
  | succ n ih =>
    have hle : w * n ≤ 512 := le_trans (Nat.mul_le_mul_left w (Nat.le_succ n)) hn
    have hsucc : w * (n + 1) = w * n + w := Nat.mul_succ w n
    rw [packLanes, BitVec.getLsbD_or, ih hle, BitVec.getLsbD_shiftLeft, BitVec.getLsbD_setWidth]
    by_cases hlow : j < w * n
    · have : j < w * (n + 1) := by omega
      simp [hlow, this]
    · by_cases hin : j < w * (n + 1)
      · have hdiv : j / w = n := by
          apply Nat.div_eq_of_lt_le
          · rw [Nat.mul_comm]; omega
          · rw [Nat.mul_comm]; simpa using hin
        have hmod : j % w = j - w * n := by
          have := Nat.div_add_mod j w
          rw [hdiv] at this
          omega
        have h1 : j < 512 := by omega
        have h2 : j - w * n < 512 := by omega
        simp [hlow, hin, hdiv, hmod, h1, h2]
      · have hbig : w ≤ j - w * n := by omega
        simp [hlow, hin, BitVec.getLsbD_of_ge _ _ hbig]

/-- Lane k of a packed bus is the value packed into it. -/
theorem lane_packLanes (w : Nat) (f : Nat → BitVec w) (n k : Nat) (hn : w * n ≤ 512) (hk : k < n) :
    lane w (packLanes w f n) k = f k := by
  apply BitVec.eq_of_getLsbD_eq
  intro j hj
  have hw : 0 < w := by omega
  have hlt : w * k + j < w * n := by
    have : w * (k + 1) ≤ w * n := Nat.mul_le_mul_left w hk
    rw [Nat.mul_succ] at this
    omega
  rw [lane_getLsbD, packLanes_getLsbD w hw f n _ hn]
  have hdiv : (w * k + j) / w = k := by
    rw [Nat.mul_add_div hw, Nat.div_eq_of_lt hj]; simp
  have hmod : (w * k + j) % w = j := by
    rw [Nat.mul_add_mod, Nat.mod_eq_of_lt hj]
  simp [hj, hlt, hdiv, hmod]

/-- A packed bus is 0 above its lanes. -/
theorem packLanes_high (w : Nat) (hw : 0 < w) (f : Nat → BitVec w) (n j : Nat) (hn : w * n ≤ 512) (hj : w * n ≤ j) :
    (packLanes w f n).getLsbD j = false := by
  rw [packLanes_getLsbD w hw f n j hn]
  simp [Nat.not_lt.mpr hj]

/-- Two packings agree when their lane values do. -/
theorem packLanes_congr (w : Nat) (f g : Nat → BitVec w) (n : Nat) (h : ∀ i, i < n → f i = g i) :
    packLanes w f n = packLanes w g n := by
  induction n with
  | zero => rfl
  | succ n ih =>
    rw [packLanes, packLanes, ih (fun i hi => h i (Nat.lt_succ_of_lt hi)), h n (Nat.lt_succ_self n)]

end Sys2Proof.Machine
end

