-- ==== Sys2Proof/Laws/PerInstr.lean ====
section
/-! SUPPORT. The per-instruction family LegalWord: an instruction's word is well formed by the field conditions of
R66, its combination of fields exists, and its vector is one of the widths of R9 and fits in a bus. -/

namespace Sys2Proof.Laws.LegalWord

/-- The instruction's word is legal, its fields combine, and its vector has a width of R9. -/
def Statement (i : Instr) : Prop :=
  opselWf (encode i) = true ∧ i.wf = true ∧ i.vectorBits ∈ [64, 128, 256, 512] ∧ i ∈ Instr.all

theorem truncF32x2 : Statement .truncF32x2 := by unfold Statement; decide
theorem truncF32x4 : Statement .truncF32x4 := by unfold Statement; decide
theorem truncF32x8 : Statement .truncF32x8 := by unfold Statement; decide
theorem truncF64x2 : Statement .truncF64x2 := by unfold Statement; decide
theorem truncF64x4 : Statement .truncF64x4 := by unfold Statement; decide
theorem truncF64x8 : Statement .truncF64x8 := by unfold Statement; decide
theorem fractF32x2 : Statement .fractF32x2 := by unfold Statement; decide
theorem fractF32x4 : Statement .fractF32x4 := by unfold Statement; decide
theorem fractF32x8 : Statement .fractF32x8 := by unfold Statement; decide
theorem fractF64x2 : Statement .fractF64x2 := by unfold Statement; decide
theorem fractF64x4 : Statement .fractF64x4 := by unfold Statement; decide
theorem fractF64x8 : Statement .fractF64x8 := by unfold Statement; decide
theorem floorF32x2 : Statement .floorF32x2 := by unfold Statement; decide
theorem floorF32x4 : Statement .floorF32x4 := by unfold Statement; decide
theorem floorF32x8 : Statement .floorF32x8 := by unfold Statement; decide
theorem floorF64x2 : Statement .floorF64x2 := by unfold Statement; decide
theorem floorF64x4 : Statement .floorF64x4 := by unfold Statement; decide
theorem floorF64x8 : Statement .floorF64x8 := by unfold Statement; decide
theorem ceilF32x2 : Statement .ceilF32x2 := by unfold Statement; decide
theorem ceilF32x4 : Statement .ceilF32x4 := by unfold Statement; decide
theorem ceilF32x8 : Statement .ceilF32x8 := by unfold Statement; decide
theorem ceilF64x2 : Statement .ceilF64x2 := by unfold Statement; decide
theorem ceilF64x4 : Statement .ceilF64x4 := by unfold Statement; decide
theorem ceilF64x8 : Statement .ceilF64x8 := by unfold Statement; decide
theorem roundF32x2 : Statement .roundF32x2 := by unfold Statement; decide
theorem roundF32x4 : Statement .roundF32x4 := by unfold Statement; decide
theorem roundF32x8 : Statement .roundF32x8 := by unfold Statement; decide
theorem roundF64x2 : Statement .roundF64x2 := by unfold Statement; decide
theorem roundF64x4 : Statement .roundF64x4 := by unfold Statement; decide
theorem roundF64x8 : Statement .roundF64x8 := by unfold Statement; decide
theorem sqrtF32x2 : Statement .sqrtF32x2 := by unfold Statement; decide
theorem sqrtF32x4 : Statement .sqrtF32x4 := by unfold Statement; decide
theorem sqrtF32x8 : Statement .sqrtF32x8 := by unfold Statement; decide
theorem sqrtF64x2 : Statement .sqrtF64x2 := by unfold Statement; decide
theorem sqrtF64x4 : Statement .sqrtF64x4 := by unfold Statement; decide
theorem sqrtF64x8 : Statement .sqrtF64x8 := by unfold Statement; decide
theorem fmaF32x2 : Statement .fmaF32x2 := by unfold Statement; decide
theorem fmaF32x4 : Statement .fmaF32x4 := by unfold Statement; decide
theorem fmaF32x8 : Statement .fmaF32x8 := by unfold Statement; decide

end Sys2Proof.Laws.LegalWord
end

