-- ==== Sys2Proof/Laws/Rounding.lean ====
section
/-! SUPPORT. The two formats' parameters as numerals, and the rounding family's lane functions with the regions of
R100 written as conditions on e, so that no proof unfolds `region`. -/

namespace Sys2Proof

@[simp] theorem binary32_p : binary32.p = 23 := rfl
@[simp] theorem binary32_ew : binary32.ew = 8 := rfl
@[simp] theorem binary32_bias : binary32.bias = 127 := rfl
@[simp] theorem binary32_expOnes : binary32.expOnes = 255 := rfl
@[simp] theorem binary64_p : binary64.p = 52 := rfl
@[simp] theorem binary64_ew : binary64.ew = 11 := rfl
@[simp] theorem binary64_bias : binary64.bias = 1023 := rfl
@[simp] theorem binary64_expOnes : binary64.expOnes = 2047 := rfl

namespace Machine

theorem region_huge (F : Fmt) {w : Nat} (x : BitVec w) (h : (F.p : Int) ≤ unbiasedExp F x) : region F x = .huge := by
  rw [region, if_pos h]

theorem region_small (F : Fmt) {w : Nat} (x : BitVec w) (h : unbiasedExp F x < 0) : region F x = .small := by
  rw [region, if_neg (by omega), if_pos h]

theorem region_middle (F : Fmt) {w : Nat} (x : BitVec w) (h0 : 0 ≤ unbiasedExp F x)
    (h1 : unbiasedExp F x < (F.p : Int)) : region F x = .middle := by
  rw [region, if_neg (by omega), if_neg (by omega)]

/-- A choice by region is a choice by the conditions on e. -/
theorem region_elim {α : Type} (F : Fmt) {w : Nat} (x : BitVec w) (huge small middle : α) :
    (match region F x with | .huge => huge | .small => small | .middle => middle) =
      if (F.p : Int) ≤ unbiasedExp F x then huge else if unbiasedExp F x < 0 then small else middle := by
  unfold region
  split_ifs <;> rfl

theorem trunc_eq (F : Fmt) {w : Nat} (x : BitVec w) :
    trunc F x = if (F.p : Int) ≤ unbiasedExp F x then x
      else if unbiasedExp F x < 0 then x &&& signMask w
      else x &&& ~~~ fracMask F x := by
  unfold trunc region
  split_ifs <;> rfl

theorem floor_eq (F : Fmt) {w : Nat} (x : BitVec w) :
    floor F x = if (F.p : Int) ≤ unbiasedExp F x then x
      else if unbiasedExp F x < 0 then
        if sign x = false then 0#w else if magnitude x = 0 then signMask w else negOne F w
      else if sign x = true ∧ x &&& fracMask F x ≠ 0 then (x + fracMask F x) &&& ~~~ fracMask F x
      else x &&& ~~~ fracMask F x := by
  unfold floor region
  split_ifs <;> simp_all

theorem ceil_eq (F : Fmt) {w : Nat} (x : BitVec w) :
    ceil F x = if (F.p : Int) ≤ unbiasedExp F x then x
      else if unbiasedExp F x < 0 then
        if sign x = true then signMask w else if x = 0 then 0#w else posOne F w
      else if sign x = false ∧ x &&& fracMask F x ≠ 0 then (x + fracMask F x) &&& ~~~ fracMask F x
      else x &&& ~~~ fracMask F x := by
  unfold ceil region
  split_ifs <;> simp_all

theorem fract_eq (F : Fmt) {w : Nat} (d x : BitVec w) :
    fract F d x = if expField F x = F.expOnes then anyNaN F d
      else if magnitude x = 0 then 0#w
      else if (F.p : Int) ≤ unbiasedExp F x then 0#w
      else if unbiasedExp F x < 0 then x
      else if x &&& fracMask F x = 0 then 0#w
      else rne F w ⟨sign x, (x &&& fracMask F x).toNat, unbiasedExp F x - (F.p : Int)⟩ := by
  unfold fract region
  split_ifs <;> simp_all

end Machine

end Sys2Proof
end

