-- ==== Sys2Proof/Laws/State.lean ====
section
/-! SUPPORT. One lemma per field of State per named update: what each operation leaves in each field. -/

namespace Sys2Proof.Machine

@[simp] theorem State.accept_cfg (s : State) (q : Request) : (s.accept q).cfg = s.cfg := rfl
@[simp] theorem State.accept_requests (s : State) (q : Request) : (s.accept q).requests = s.requests ++ [q] := rfl
@[simp] theorem State.accept_opsel (s : State) (q : Request) : (s.accept q).opsel = s.opsel := rfl
@[simp] theorem State.accept_a (s : State) (q : Request) : (s.accept q).a = s.a := rfl
@[simp] theorem State.accept_b (s : State) (q : Request) : (s.accept q).b = s.b := rfl
@[simp] theorem State.accept_c (s : State) (q : Request) : (s.accept q).c = s.c := rfl
@[simp] theorem State.accept_r (s : State) (q : Request) : (s.accept q).r = s.r := rfl
@[simp] theorem State.accept_illegal (s : State) (q : Request) : (s.accept q).illegal = s.illegal := rfl
@[simp] theorem State.accept_presented (s : State) (q : Request) : (s.accept q).presented = s.presented := rfl
@[simp] theorem State.accept_raised (s : State) (q : Request) : (s.accept q).raised = s.raised := rfl
@[simp] theorem State.accept_stuck (s : State) (q : Request) : (s.accept q).stuck = s.stuck := rfl
@[simp] theorem State.accept_resetLine (s : State) (q : Request) : (s.accept q).resetLine = s.resetLine := rfl
@[simp] theorem State.accept_draws (s : State) (q : Request) : (s.accept q).draws = s.draws := rfl

@[simp] theorem State.takeRequest_cfg (s : State) (q : Request) (rest : List Request) : (s.takeRequest q rest).cfg = s.cfg := rfl
@[simp] theorem State.takeRequest_requests (s : State) (q : Request) (rest : List Request) : (s.takeRequest q rest).requests = rest := rfl
@[simp] theorem State.takeRequest_opsel (s : State) (q : Request) (rest : List Request) : (s.takeRequest q rest).opsel = q.opsel := rfl
@[simp] theorem State.takeRequest_a (s : State) (q : Request) (rest : List Request) : (s.takeRequest q rest).a = q.a := rfl
@[simp] theorem State.takeRequest_b (s : State) (q : Request) (rest : List Request) : (s.takeRequest q rest).b = q.b := rfl
@[simp] theorem State.takeRequest_c (s : State) (q : Request) (rest : List Request) : (s.takeRequest q rest).c = q.c := rfl
@[simp] theorem State.takeRequest_r (s : State) (q : Request) (rest : List Request) : (s.takeRequest q rest).r = s.r := rfl
@[simp] theorem State.takeRequest_illegal (s : State) (q : Request) (rest : List Request) : (s.takeRequest q rest).illegal = s.illegal := rfl
@[simp] theorem State.takeRequest_presented (s : State) (q : Request) (rest : List Request) : (s.takeRequest q rest).presented = s.presented := rfl
@[simp] theorem State.takeRequest_raised (s : State) (q : Request) (rest : List Request) : (s.takeRequest q rest).raised = s.raised := rfl
@[simp] theorem State.takeRequest_stuck (s : State) (q : Request) (rest : List Request) : (s.takeRequest q rest).stuck = s.stuck := rfl
@[simp] theorem State.takeRequest_resetLine (s : State) (q : Request) (rest : List Request) : (s.takeRequest q rest).resetLine = s.resetLine := rfl
@[simp] theorem State.takeRequest_draws (s : State) (q : Request) (rest : List Request) : (s.takeRequest q rest).draws = s.draws := rfl

@[simp] theorem State.answer_cfg (s : State) (v : Bus) (n : Nat) : (s.answer v n).cfg = s.cfg := rfl
@[simp] theorem State.answer_requests (s : State) (v : Bus) (n : Nat) : (s.answer v n).requests = s.requests := rfl
@[simp] theorem State.answer_opsel (s : State) (v : Bus) (n : Nat) : (s.answer v n).opsel = s.opsel := rfl
@[simp] theorem State.answer_a (s : State) (v : Bus) (n : Nat) : (s.answer v n).a = s.a := rfl
@[simp] theorem State.answer_b (s : State) (v : Bus) (n : Nat) : (s.answer v n).b = s.b := rfl
@[simp] theorem State.answer_c (s : State) (v : Bus) (n : Nat) : (s.answer v n).c = s.c := rfl
@[simp] theorem State.answer_r (s : State) (v : Bus) (n : Nat) : (s.answer v n).r = v := rfl
@[simp] theorem State.answer_illegal (s : State) (v : Bus) (n : Nat) : (s.answer v n).illegal = false := rfl
@[simp] theorem State.answer_presented (s : State) (v : Bus) (n : Nat) : (s.answer v n).presented = true := rfl
@[simp] theorem State.answer_raised (s : State) (v : Bus) (n : Nat) : (s.answer v n).raised = none := rfl
@[simp] theorem State.answer_stuck (s : State) (v : Bus) (n : Nat) : (s.answer v n).stuck = s.stuck := rfl
@[simp] theorem State.answer_resetLine (s : State) (v : Bus) (n : Nat) : (s.answer v n).resetLine = s.resetLine := rfl
@[simp] theorem State.answer_draws (s : State) (v : Bus) (n : Nat) : (s.answer v n).draws = s.draws + n := rfl

@[simp] theorem State.takeIllegalOpsel_cfg (s : State) : (s.takeIllegalOpsel).cfg = s.cfg := rfl
@[simp] theorem State.takeIllegalOpsel_requests (s : State) : (s.takeIllegalOpsel).requests = s.requests := rfl
@[simp] theorem State.takeIllegalOpsel_opsel (s : State) : (s.takeIllegalOpsel).opsel = s.opsel := rfl
@[simp] theorem State.takeIllegalOpsel_a (s : State) : (s.takeIllegalOpsel).a = s.a := rfl
@[simp] theorem State.takeIllegalOpsel_b (s : State) : (s.takeIllegalOpsel).b = s.b := rfl
@[simp] theorem State.takeIllegalOpsel_c (s : State) : (s.takeIllegalOpsel).c = s.c := rfl
@[simp] theorem State.takeIllegalOpsel_r (s : State) : (s.takeIllegalOpsel).r = Config.freeValue s.draws := rfl
@[simp] theorem State.takeIllegalOpsel_illegal (s : State) : (s.takeIllegalOpsel).illegal = true := rfl
@[simp] theorem State.takeIllegalOpsel_presented (s : State) : (s.takeIllegalOpsel).presented = true := rfl
@[simp] theorem State.takeIllegalOpsel_raised (s : State) : (s.takeIllegalOpsel).raised = some (.illegalOpsel s.opsel) := rfl
@[simp] theorem State.takeIllegalOpsel_stuck (s : State) : (s.takeIllegalOpsel).stuck = s.stuck := rfl
@[simp] theorem State.takeIllegalOpsel_resetLine (s : State) : (s.takeIllegalOpsel).resetLine = s.resetLine := rfl
@[simp] theorem State.takeIllegalOpsel_draws (s : State) : (s.takeIllegalOpsel).draws = s.draws + 1 := rfl

@[simp] theorem State.idle_cfg (s : State) : (s.idle).cfg = s.cfg := rfl
@[simp] theorem State.idle_requests (s : State) : (s.idle).requests = s.requests := rfl
@[simp] theorem State.idle_opsel (s : State) : (s.idle).opsel = s.opsel := rfl
@[simp] theorem State.idle_a (s : State) : (s.idle).a = s.a := rfl
@[simp] theorem State.idle_b (s : State) : (s.idle).b = s.b := rfl
@[simp] theorem State.idle_c (s : State) : (s.idle).c = s.c := rfl
@[simp] theorem State.idle_r (s : State) : (s.idle).r = s.r := rfl
@[simp] theorem State.idle_illegal (s : State) : (s.idle).illegal = s.illegal := rfl
@[simp] theorem State.idle_presented (s : State) : (s.idle).presented = false := rfl
@[simp] theorem State.idle_raised (s : State) : (s.idle).raised = none := rfl
@[simp] theorem State.idle_stuck (s : State) : (s.idle).stuck = s.stuck := rfl
@[simp] theorem State.idle_resetLine (s : State) : (s.idle).resetLine = s.resetLine := rfl
@[simp] theorem State.idle_draws (s : State) : (s.idle).draws = s.draws := rfl

@[simp] theorem State.takeReset_cfg (s : State) : (s.takeReset).cfg = s.cfg := rfl
@[simp] theorem State.takeReset_requests (s : State) : (s.takeReset).requests = [] := rfl
@[simp] theorem State.takeReset_opsel (s : State) : (s.takeReset).opsel = s.opsel := rfl
@[simp] theorem State.takeReset_a (s : State) : (s.takeReset).a = s.a := rfl
@[simp] theorem State.takeReset_b (s : State) : (s.takeReset).b = s.b := rfl
@[simp] theorem State.takeReset_c (s : State) : (s.takeReset).c = s.c := rfl
@[simp] theorem State.takeReset_r (s : State) : (s.takeReset).r = Config.freeValue s.draws := rfl
@[simp] theorem State.takeReset_illegal (s : State) : (s.takeReset).illegal = (Config.freeValue (s.draws + 1)).getLsbD 0 := rfl
@[simp] theorem State.takeReset_presented (s : State) : (s.takeReset).presented = false := rfl
@[simp] theorem State.takeReset_raised (s : State) : (s.takeReset).raised = none := rfl
@[simp] theorem State.takeReset_stuck (s : State) : (s.takeReset).stuck = false := rfl
@[simp] theorem State.takeReset_resetLine (s : State) : (s.takeReset).resetLine = false := rfl
@[simp] theorem State.takeReset_draws (s : State) : (s.takeReset).draws = s.draws + 2 := rfl

end Sys2Proof.Machine
end

