-- ==== Sys2Proof/Laws/Step.lean ====
section
/-! SUPPORT. What an instruction and a step can do, said once: every meaning is one answer on the response port,
and a step is a reset, an idle step, an answer or an illegal request. -/

namespace Sys2Proof.Machine

/-- What a unary operation answers. -/
theorem answerUnary_next (w n : Nat) (op : BitVec w → BitVec w → BitVec w) (s : State) :
    answerUnary w n op s = .next (s.answer (unaryResult w n op s) n) := rfl

/-- What a ternary operation answers. -/
theorem answerTernary_next (w n : Nat) (op : BitVec w → BitVec w → BitVec w → BitVec w → BitVec w) (s : State) :
    answerTernary w n op s = .next (s.answer (ternaryResult w n op s) n) := rfl

/-- Lane k of a unary result is the lane function of lane k of A. -/
theorem lane_unaryResult (w n : Nat) (op : BitVec w → BitVec w → BitVec w) (s : State) (k : Nat)
    (hn : w * n ≤ 512) (hk : k < n) :
    lane w (unaryResult w n op s) k = op (s.laneDraw w k) (lane w s.a k) :=
  lane_packLanes w _ n k hn hk

/-- Lane k of a ternary result is the lane function of lane k of A, B and C. -/
theorem lane_ternaryResult (w n : Nat) (op : BitVec w → BitVec w → BitVec w → BitVec w → BitVec w) (s : State)
    (k : Nat) (hn : w * n ≤ 512) (hk : k < n) :
    lane w (ternaryResult w n op s) k = op (s.laneDraw w k) (lane w s.a k) (lane w s.b k) (lane w s.c k) :=
  lane_packLanes w _ n k hn hk

/-- Every operation answers: exec is one answer of as many lanes as the operation has. -/
theorem exec_answer (i : Instr) (s : State) : ∃ v, exec i s = .next (s.answer v i.lanes.count) := by
  cases i <;> exact ⟨_, rfl⟩

/-- A step, by cases: reset, a stuck unit, idling, a legal request, an illegal request. -/
theorem step_cases (s : State) :
    (s.resetLine = true ∧ step s = .next s.takeReset) ∨
    (s.resetLine = false ∧ s.stuck = true ∧ step s = .fault .stuck) ∨
    (s.responsive ∧ s.requests = [] ∧ step s = .next s.idle) ∨
    (∃ q rest i, s.responsive ∧ s.requests = q :: rest ∧ legalOperation s.cfg q.opsel = .ok i ∧
      step s = exec i (s.takeRequest q rest)) ∨
    (∃ q rest e, s.responsive ∧ s.requests = q :: rest ∧ legalOperation s.cfg q.opsel = .error e ∧
      step s = .next (s.takeRequest q rest).takeIllegalOpsel) := by
  unfold step State.responsive
  cases hr : s.resetLine with
  | true => exact .inl ⟨rfl, rfl⟩
  | false =>
    cases hs : s.stuck with
    | true => exact .inr (.inl ⟨rfl, rfl, rfl⟩)
    | false =>
      cases hq : s.requests with
      | nil => exact .inr (.inr (.inl ⟨⟨rfl, rfl⟩, rfl, rfl⟩))
      | cons q rest =>
        cases hl : legalOperation s.cfg q.opsel with
        | ok i => exact .inr (.inr (.inr (.inl ⟨q, rest, i, ⟨rfl, rfl⟩, rfl, hl, by simp [hl]⟩)))
        | error e => exact .inr (.inr (.inr (.inr ⟨q, rest, e, ⟨rfl, rfl⟩, rfl, hl, by simp [hl]⟩)))

end Sys2Proof.Machine
end

