-- ==== Sys2Proof/Tests/Slice0.lean ====
section
/-! SUPPORT. The model's own tests. Expected values are the spec's: the worked vectors of 95_test_vectors.md, the
opcode map of 30_encoding.md R70, the constants of R92. The witnesses at the end meet the hypotheses of the
obligations of the same name. -/

-- One test at a time: the kernel evaluations below would otherwise each hold a thread of their own.
set_option Elab.async false

namespace Sys2Proof.Tests

open Sys2Proof.Machine

/-- The reset state with these operands on the buses and stray bits above every vector. -/
def onPort (a b c : Bus) : State := { State.reset with a := a, b := b, c := c }

/-- R of an answer, when the answer is a legal response. -/
def resultOf : Out → Option Bus
  | .next t => if t.illegal = false ∧ t.presented = true then some t.r else none
  | _ => none

/-! ### Decoding: each word written field by field, RSV, LN, FMT, OP (R60 to R64) -/

theorem test_decode_truncF32x2 :
    decode (0b00#2 ++ 0b00#2 ++ 0b0#1 ++ 0b000#3) = .ok .truncF32x2 := by decide
theorem test_decode_truncF32x4 :
    decode (0b00#2 ++ 0b01#2 ++ 0b0#1 ++ 0b000#3) = .ok .truncF32x4 := by decide
theorem test_decode_truncF32x8 :
    decode (0b00#2 ++ 0b10#2 ++ 0b0#1 ++ 0b000#3) = .ok .truncF32x8 := by decide
theorem test_decode_truncF64x2 :
    decode (0b00#2 ++ 0b00#2 ++ 0b1#1 ++ 0b000#3) = .ok .truncF64x2 := by decide
theorem test_decode_truncF64x4 :
    decode (0b00#2 ++ 0b01#2 ++ 0b1#1 ++ 0b000#3) = .ok .truncF64x4 := by decide
theorem test_decode_truncF64x8 :
    decode (0b00#2 ++ 0b10#2 ++ 0b1#1 ++ 0b000#3) = .ok .truncF64x8 := by decide
theorem test_decode_fractF32x2 :
    decode (0b00#2 ++ 0b00#2 ++ 0b0#1 ++ 0b001#3) = .ok .fractF32x2 := by decide
theorem test_decode_fractF32x4 :
    decode (0b00#2 ++ 0b01#2 ++ 0b0#1 ++ 0b001#3) = .ok .fractF32x4 := by decide
theorem test_decode_fractF32x8 :
    decode (0b00#2 ++ 0b10#2 ++ 0b0#1 ++ 0b001#3) = .ok .fractF32x8 := by decide
theorem test_decode_fractF64x2 :
    decode (0b00#2 ++ 0b00#2 ++ 0b1#1 ++ 0b001#3) = .ok .fractF64x2 := by decide
theorem test_decode_fractF64x4 :
    decode (0b00#2 ++ 0b01#2 ++ 0b1#1 ++ 0b001#3) = .ok .fractF64x4 := by decide
theorem test_decode_fractF64x8 :
    decode (0b00#2 ++ 0b10#2 ++ 0b1#1 ++ 0b001#3) = .ok .fractF64x8 := by decide
theorem test_decode_floorF32x2 :
    decode (0b00#2 ++ 0b00#2 ++ 0b0#1 ++ 0b010#3) = .ok .floorF32x2 := by decide
theorem test_decode_floorF32x4 :
    decode (0b00#2 ++ 0b01#2 ++ 0b0#1 ++ 0b010#3) = .ok .floorF32x4 := by decide
theorem test_decode_floorF32x8 :
    decode (0b00#2 ++ 0b10#2 ++ 0b0#1 ++ 0b010#3) = .ok .floorF32x8 := by decide
theorem test_decode_floorF64x2 :
    decode (0b00#2 ++ 0b00#2 ++ 0b1#1 ++ 0b010#3) = .ok .floorF64x2 := by decide
theorem test_decode_floorF64x4 :
    decode (0b00#2 ++ 0b01#2 ++ 0b1#1 ++ 0b010#3) = .ok .floorF64x4 := by decide
theorem test_decode_floorF64x8 :
    decode (0b00#2 ++ 0b10#2 ++ 0b1#1 ++ 0b010#3) = .ok .floorF64x8 := by decide
theorem test_decode_ceilF32x2 :
    decode (0b00#2 ++ 0b00#2 ++ 0b0#1 ++ 0b011#3) = .ok .ceilF32x2 := by decide
theorem test_decode_ceilF32x4 :
    decode (0b00#2 ++ 0b01#2 ++ 0b0#1 ++ 0b011#3) = .ok .ceilF32x4 := by decide
theorem test_decode_ceilF32x8 :
    decode (0b00#2 ++ 0b10#2 ++ 0b0#1 ++ 0b011#3) = .ok .ceilF32x8 := by decide
theorem test_decode_ceilF64x2 :
    decode (0b00#2 ++ 0b00#2 ++ 0b1#1 ++ 0b011#3) = .ok .ceilF64x2 := by decide
theorem test_decode_ceilF64x4 :
    decode (0b00#2 ++ 0b01#2 ++ 0b1#1 ++ 0b011#3) = .ok .ceilF64x4 := by decide
theorem test_decode_ceilF64x8 :
    decode (0b00#2 ++ 0b10#2 ++ 0b1#1 ++ 0b011#3) = .ok .ceilF64x8 := by decide
theorem test_decode_roundF32x2 :
    decode (0b00#2 ++ 0b00#2 ++ 0b0#1 ++ 0b100#3) = .ok .roundF32x2 := by decide
theorem test_decode_roundF32x4 :
    decode (0b00#2 ++ 0b01#2 ++ 0b0#1 ++ 0b100#3) = .ok .roundF32x4 := by decide
theorem test_decode_roundF32x8 :
    decode (0b00#2 ++ 0b10#2 ++ 0b0#1 ++ 0b100#3) = .ok .roundF32x8 := by decide
theorem test_decode_roundF64x2 :
    decode (0b00#2 ++ 0b00#2 ++ 0b1#1 ++ 0b100#3) = .ok .roundF64x2 := by decide
theorem test_decode_roundF64x4 :
    decode (0b00#2 ++ 0b01#2 ++ 0b1#1 ++ 0b100#3) = .ok .roundF64x4 := by decide
theorem test_decode_roundF64x8 :
    decode (0b00#2 ++ 0b10#2 ++ 0b1#1 ++ 0b100#3) = .ok .roundF64x8 := by decide
theorem test_decode_sqrtF32x2 :
    decode (0b00#2 ++ 0b00#2 ++ 0b0#1 ++ 0b101#3) = .ok .sqrtF32x2 := by decide
theorem test_decode_sqrtF32x4 :
    decode (0b00#2 ++ 0b01#2 ++ 0b0#1 ++ 0b101#3) = .ok .sqrtF32x4 := by decide
theorem test_decode_sqrtF32x8 :
    decode (0b00#2 ++ 0b10#2 ++ 0b0#1 ++ 0b101#3) = .ok .sqrtF32x8 := by decide
theorem test_decode_sqrtF64x2 :
    decode (0b00#2 ++ 0b00#2 ++ 0b1#1 ++ 0b101#3) = .ok .sqrtF64x2 := by decide
theorem test_decode_sqrtF64x4 :
    decode (0b00#2 ++ 0b01#2 ++ 0b1#1 ++ 0b101#3) = .ok .sqrtF64x4 := by decide
theorem test_decode_sqrtF64x8 :
    decode (0b00#2 ++ 0b10#2 ++ 0b1#1 ++ 0b101#3) = .ok .sqrtF64x8 := by decide
theorem test_decode_fmaF32x2 :
    decode (0b00#2 ++ 0b00#2 ++ 0b0#1 ++ 0b110#3) = .ok .fmaF32x2 := by decide
theorem test_decode_fmaF32x4 :
    decode (0b00#2 ++ 0b01#2 ++ 0b0#1 ++ 0b110#3) = .ok .fmaF32x4 := by decide
theorem test_decode_fmaF32x8 :
    decode (0b00#2 ++ 0b10#2 ++ 0b0#1 ++ 0b110#3) = .ok .fmaF32x8 := by decide

/-! ### One answer of each operation, on rows of 95_test_vectors.md sections 2.1 to 2.4 -/

theorem test_exec_truncF32x2 :
    resultOf (exec .truncF32x2 (onPort 0x5a5a007fffffbfc00000#512 7 9)) =
      some 0xbf800000#512 := by
  decide +kernel
theorem test_exec_truncF32x4 :
    resultOf (exec .truncF32x4 (onPort 0x5a5ac0600000bf800001800000004affffff#512 7 9)) =
      some 0xc0400000bf800000800000004afffffe#512 := by
  decide +kernel
theorem test_exec_truncF32x8 :
    resultOf (exec .truncF32x8 (onPort 0x5a5a3f7fffff80000001000000014b0000004affffff4a800001c0300000c0200000#512 7 9)) =
      some 0x80000000000000004b0000004afffffe4a800000c0000000c0000000#512 := by
  decide +kernel
theorem test_exec_truncF64x2 :
    resultOf (exec .truncF64x2 (onPort 0x5a5abff0000000000001c004000000000000#512 7 9)) =
      some 0xbff0000000000000c000000000000000#512 := by
  decide +kernel
theorem test_exec_truncF64x4 :
    resultOf (exec .truncF64x4 (onPort 0x5a5a80000000000000004320000000000001c32fffffffffffff432fffffffffffff#512 7 9)) =
      some 0x80000000000000004320000000000000c32ffffffffffffe432ffffffffffffe#512 := by
  decide +kernel
theorem test_exec_truncF64x8 :
    resultOf (exec .truncF64x8 (onPort 0x3fefffffffffffff80000000000000010000000000000001c32fffffffffffff432fffffffffffff4330000000000000c006000000000000bff8000000000000#512 7 9)) =
      some 0x80000000000000000000000000000000c32ffffffffffffe432ffffffffffffe4330000000000000c000000000000000bff0000000000000#512 := by
  decide +kernel
theorem test_exec_fractF32x2 :
    resultOf (exec .fractF32x2 (onPort 0x5a5a007fffffbfc00000#512 7 9)) =
      some 0x7fffffbf000000#512 := by
  decide +kernel
theorem test_exec_fractF32x4 :
    resultOf (exec .fractF32x4 (onPort 0x5a5ac0600000bf800001800000004affffff#512 7 9)) =
      some 0xbf000000b4000000000000003f000000#512 := by
  decide +kernel
theorem test_exec_fractF32x8 :
    resultOf (exec .fractF32x8 (onPort 0x5a5a3f7fffff80000001000000014b0000004affffff4a800001c0300000c0200000#512 7 9)) =
      some 0x3f7fffff8000000100000001000000003f0000003f000000bf400000bf000000#512 := by
  decide +kernel
theorem test_exec_fractF64x2 :
    resultOf (exec .fractF64x2 (onPort 0x5a5abff0000000000001c004000000000000#512 7 9)) =
      some 0xbcb0000000000000bfe0000000000000#512 := by
  decide +kernel
theorem test_exec_fractF64x4 :
    resultOf (exec .fractF64x4 (onPort 0x5a5a80000000000000004320000000000001c32fffffffffffff432fffffffffffff#512 7 9)) =
      some 0x3fe0000000000000bfe00000000000003fe0000000000000#512 := by
  decide +kernel
theorem test_exec_fractF64x8 :
    resultOf (exec .fractF64x8 (onPort 0x3fefffffffffffff80000000000000010000000000000001c32fffffffffffff432fffffffffffff4330000000000000c006000000000000bff8000000000000#512 7 9)) =
      some 0x3fefffffffffffff80000000000000010000000000000001bfe00000000000003fe00000000000000000000000000000bfe8000000000000bfe0000000000000#512 := by
  decide +kernel
theorem test_exec_floorF32x2 :
    resultOf (exec .floorF32x2 (onPort 0x5a5a007fffffbfc00000#512 7 9)) =
      some 0xc0000000#512 := by
  decide +kernel
theorem test_exec_floorF32x4 :
    resultOf (exec .floorF32x4 (onPort 0x5a5ac0600000bf800001800000004affffff#512 7 9)) =
      some 0xc0800000c0000000800000004afffffe#512 := by
  decide +kernel
theorem test_exec_floorF32x8 :
    resultOf (exec .floorF32x8 (onPort 0x5a5a3f7fffff80000001000000014b0000004affffff4a800001c0300000c0200000#512 7 9)) =
      some 0xbf800000000000004b0000004afffffe4a800000c0400000c0400000#512 := by
  decide +kernel
theorem test_exec_floorF64x2 :
    resultOf (exec .floorF64x2 (onPort 0x5a5abff0000000000001c004000000000000#512 7 9)) =
      some 0xc000000000000000c008000000000000#512 := by
  decide +kernel
theorem test_exec_floorF64x4 :
    resultOf (exec .floorF64x4 (onPort 0x5a5a80000000000000004320000000000001c32fffffffffffff432fffffffffffff#512 7 9)) =
      some 0x80000000000000004320000000000000c330000000000000432ffffffffffffe#512 := by
  decide +kernel
theorem test_exec_floorF64x8 :
    resultOf (exec .floorF64x8 (onPort 0x3fefffffffffffff80000000000000010000000000000001c32fffffffffffff432fffffffffffff4330000000000000c006000000000000bff8000000000000#512 7 9)) =
      some 0xbff00000000000000000000000000000c330000000000000432ffffffffffffe4330000000000000c008000000000000c000000000000000#512 := by
  decide +kernel
theorem test_exec_ceilF32x2 :
    resultOf (exec .ceilF32x2 (onPort 0x5a5a007fffffbfc00000#512 7 9)) =
      some 0x3f800000bf800000#512 := by
  decide +kernel
theorem test_exec_ceilF32x4 :
    resultOf (exec .ceilF32x4 (onPort 0x5a5ac0600000bf800001800000004affffff#512 7 9)) =
      some 0xc0400000bf800000800000004b000000#512 := by
  decide +kernel
theorem test_exec_ceilF32x8 :
    resultOf (exec .ceilF32x8 (onPort 0x5a5a3f7fffff80000001000000014b0000004affffff4a800001c0300000c0200000#512 7 9)) =
      some 0x3f800000800000003f8000004b0000004b0000004a800002c0000000c0000000#512 := by
  decide +kernel
theorem test_exec_ceilF64x2 :
    resultOf (exec .ceilF64x2 (onPort 0x5a5abff0000000000001c004000000000000#512 7 9)) =
      some 0xbff0000000000000c000000000000000#512 := by
  decide +kernel
theorem test_exec_ceilF64x4 :
    resultOf (exec .ceilF64x4 (onPort 0x5a5a80000000000000004320000000000001c32fffffffffffff432fffffffffffff#512 7 9)) =
      some 0x80000000000000004320000000000002c32ffffffffffffe4330000000000000#512 := by
  decide +kernel
theorem test_exec_ceilF64x8 :
    resultOf (exec .ceilF64x8 (onPort 0x3fefffffffffffff80000000000000010000000000000001c32fffffffffffff432fffffffffffff4330000000000000c006000000000000bff8000000000000#512 7 9)) =
      some 0x3ff000000000000080000000000000003ff0000000000000c32ffffffffffffe43300000000000004330000000000000c000000000000000bff0000000000000#512 := by
  decide +kernel
theorem test_exec_roundF32x2 :
    resultOf (exec .roundF32x2 (onPort 0x5a5a007fffffbfc00000#512 7 9)) =
      some 0xc0000000#512 := by
  decide +kernel
theorem test_exec_roundF32x4 :
    resultOf (exec .roundF32x4 (onPort 0x5a5ac0600000bf800001800000004affffff#512 7 9)) =
      some 0xc0800000bf800000800000004b000000#512 := by
  decide +kernel
theorem test_exec_roundF32x8 :
    resultOf (exec .roundF32x8 (onPort 0x5a5a3f7fffff80000001000000014b0000004affffff4a800001c0300000c0200000#512 7 9)) =
      some 0x3f80000080000000000000004b0000004b0000004a800000c0400000c0000000#512 := by
  decide +kernel
theorem test_exec_roundF64x2 :
    resultOf (exec .roundF64x2 (onPort 0x5a5abff0000000000001c004000000000000#512 7 9)) =
      some 0xbff0000000000000c000000000000000#512 := by
  decide +kernel
theorem test_exec_roundF64x4 :
    resultOf (exec .roundF64x4 (onPort 0x5a5a80000000000000004320000000000001c32fffffffffffff432fffffffffffff#512 7 9)) =
      some 0x80000000000000004320000000000000c3300000000000004330000000000000#512 := by
  decide +kernel
theorem test_exec_roundF64x8 :
    resultOf (exec .roundF64x8 (onPort 0x3fefffffffffffff80000000000000010000000000000001c32fffffffffffff432fffffffffffff4330000000000000c006000000000000bff8000000000000#512 7 9)) =
      some 0x3ff000000000000080000000000000000000000000000000c33000000000000043300000000000004330000000000000c008000000000000c000000000000000#512 := by
  decide +kernel
theorem test_exec_sqrtF32x2 :
    resultOf (exec .sqrtF32x2 (onPort 0x777f7fffff40000000#512 7 9)) =
      some 0x5f7fffff3fb504f3#512 := by
  decide +kernel
theorem test_exec_sqrtF32x4 :
    resultOf (exec .sqrtF32x4 (onPort 0x77007fffff000000017f80000080000000#512 7 9)) =
      some 0x1fffffff1a3504f37f80000080000000#512 := by
  decide +kernel
theorem test_exec_sqrtF32x8 :
    resultOf (exec .sqrtF32x8 (onPort 0x770000000401000000008000003f7fffff3f800001404000004000000040800000#512 7 9)) =
      some 0x1ab504f3203504f3200000003f7fffff3f8000003fddb3d73fb504f340000000#512 := by
  decide +kernel
theorem test_exec_sqrtF64x2 :
    resultOf (exec .sqrtF64x2 (onPort 0x7ff00000000000008000000000000000#512 7 9)) =
      some 0x7ff00000000000008000000000000000#512 := by
  decide +kernel
theorem test_exec_sqrtF64x4 :
    resultOf (exec .sqrtF64x4 { onPort 0x3ff00000000000017fefffffffffffff00000000000000014000000000000000#512 7 9 with cfg := { Config.default with accSqrtF64 := .correctlyRounded } }) =
      some 0x3ff00000000000005fefffffffffffff1e600000000000003ff6a09e667f3bcd#512 := by
  decide +kernel
theorem test_exec_sqrtF64x8 :
    resultOf (exec .sqrtF64x8 { onPort 0x3ff00000000000017fefffffffffffff000fffffffffffff00000000000000013ff000000000000040000000000000004010000000000000#512 7 9 with cfg := { Config.default with accSqrtF64 := .correctlyRounded } }) =
      some 0x3ff00000000000005fefffffffffffff1fffffffffffffff1e600000000000003ff00000000000003ff6a09e667f3bcd4000000000000000#512 := by
  decide +kernel
theorem test_exec_fmaF32x2 :
    resultOf (exec .fmaF32x2 (onPort 0x3f80000140000000#512
      0x3f7ffffe40400000#512 0xbf80000040800000#512)) =
      some 0xa880000041200000#512 := by
  decide +kernel
theorem test_exec_fmaF32x4 :
    resultOf (exec .fmaF32x4 (onPort 0x3f9744003f8000000000000000000000#512
      0x3fa610003f8000003f800000bf800000#512 0x242e6d2cff8000008000000080000000#512)) =
      some 0x3fc43f19ff8000000000000080000000#512 := by
  decide +kernel
theorem test_exec_fmaF32x8 :
    resultOf (exec .fmaF32x8 (onPort 0x3fb504f3008000007f7fffff7f7fffff7f7fffff7f800000800000003f800000#512
      0x3fb504f33f0000003f8000003f80000040000000400000003f8000003f800000#512 0xc00000000000000072ffffff73000000000000007f80000080000000bf800000#512)) =
      some 0xb39302ae004000007f7fffff7f8000007f8000007f8000008000000000000000#512 := by
  decide +kernel

/-! ### The accuracy sets and the internal datapaths, on rows of 95_test_vectors.md -/

theorem test_sqrt_faithful_two :
    sqrt binary32 .faithful 0 0x40000000#32 = 0x3FB504F3#32 ∧ sqrt binary32 .faithful 1 0x40000000#32 = 0x3FB504F4#32 := by decide +kernel
theorem test_sqrt_sign_only : (sqrt binary64 .signOnly 0xFFF0000000000001#64 0x4010000000000000#64) = 0x7FF0000000000001#64 := by decide +kernel
theorem test_fma_row19 :
    fma binary32 .crNormal 0 0x1C001003 0x1C802FF7 0x00400001 = 0x00400101#32 ∧
    fma binary32 .crNormal 1 0x1C001003 0x1C802FF7 0x00400001 = 0x00400102#32 ∧
    fmaDatapath 0 0x1C001003 0x1C802FF7 0x00400001 = 0x00400102#32 := by decide +kernel
theorem test_fma_row20 :
    fmaFast (fmaProduct 0x3F974400 0x3FA61000) (widen 0x242E6D2C) (fmaWideSum 0x3F974400 0x3FA61000 0x242E6D2C) = false ∧
    fmaDatapath 0 0x3F974400 0x3FA61000 0x242E6D2C = 0x3FC43F19#32 := by decide +kernel
theorem test_sqrt_datapath_two : sqrtDatapath Config.default.seedTable 0x40000000 = 0x3FB504F3#32 := by decide +kernel
theorem test_sqrt_datapath_subnormal : sqrtDatapath Config.default.seedTable 0x00000001 = 0x1A3504F3#32 := by decide +kernel
theorem test_magic_round : roundByMagic binary32 0 0x4AFFFFFF#32 = 0x4B000000#32 ∧ roundByMagic binary64 0 0xC004000000000000#64 = 0xC000000000000000#64 := by decide +kernel
theorem test_fract_difference : fractDifference binary32 0 0xC0300000#32 = 0xBF400000#32 := by decide +kernel

/-- Entry i is the nearest integer to `65536 * 2 / (sqrt(lo) + sqrt(hi))` of R163: with lo = A/64, hi = B/64 and n
the entry, `(2n-1)(sqrt A + sqrt B) < 2^21 < (2n+1)(sqrt A + sqrt B)`, squared twice to be exact. -/
def seedEntryIsNearest (i n : Nat) : Bool :=
  let scale := if i < 64 then 2 else 1
  let A := scale * (64 + i % 64)
  let B := scale * (65 + i % 64)
  let lo := (2 * n - 1) ^ 2
  let hi := (2 * n + 1) ^ 2
  decide (lo * (A + B) < 2 ^ 42) && decide (4 * lo ^ 2 * (A * B) < (2 ^ 42 - lo * (A + B)) ^ 2) &&
    (decide (2 ^ 42 < hi * (A + B)) || decide ((2 ^ 42 - hi * (A + B)) ^ 2 < 4 * hi ^ 2 * (A * B)))

theorem test_seed_table_is_the_formula :
    (defaultSeedEntries.zipIdx).all (fun e => seedEntryIsNearest e.2 e.1.toNat) = true := by decide +kernel

/-! ### Well-formedness: each check refuses an ill-formed term -/

theorem test_opselWf_refuses_reserved_op : opselWf 0x07 = false := by decide
theorem test_opselWf_refuses_reserved_lanes : opselWf 0x30 = false := by decide
theorem test_opselWf_refuses_reserved_bits : opselWf 0x40 = false ∧ opselWf 0x80 = false ∧ opselWf 0xC4 = false := by decide
theorem test_opselWf_refuses_binary64_fma : opselWf 0x0E = false ∧ opselWf 0x1E = false ∧ opselWf 0x2E = false := by decide
theorem test_fieldsWf_refuses_binary64_fma : fieldsWf .fma .f64 = false := by decide
theorem test_config_refuses_repeats : Config.wf { Config.default with supported := [.fmaF32x2, .fmaF32x2] } = false := by decide
theorem test_config_default_wf : Config.default.wf = true := by decide
theorem test_decode_agrees_with_opselWf : ∀ w : Opsel, (decode w).isOk = opselWf w := by decide

/-! ### Rejection by name, and steps -/

theorem test_decode_reserved_op : decode 0x07 = .error .reservedOp := by decide
theorem test_decode_fma_f64 : decode 0x0E = .error .fmaBinary64 ∧ decode 0x1E = .error .fmaBinary64 := by decide
theorem test_decode_reserved_lanes : decode 0x30 = .error .reservedLaneCount := by decide
theorem test_decode_reserved_bits : decode 0x40 = .error .reservedBits ∧ decode 0xFF = .error .reservedBits := by decide
theorem test_unsupported : legalOperation { Config.default with supported := [.truncF32x2] } 0x10 = .error .notSupported := by decide
theorem test_table_word : decodeTableWord 8 0x2D = some .sqrtF64x8 ∧ decodeTableWord 8 0x0E = none ∧ decodeTableWord 16 0x100 = none := by decide
theorem test_fetch_word : ∃ t, step (State.reset.withFetchWord 8 0x10) = .next t ∧ t.opsel = 0x10 ∧ t.illegal = false := ⟨_, rfl, by decide⟩

/-- P5 of 95_test_vectors.md: an illegal request between two legal ones. -/
def programP5 : State :=
  { State.reset with requests := [⟨0x05, 0x4080000040000000, 0, 0⟩, ⟨0x0E, 1, 2, 3⟩, ⟨0x00, 0x400000003FB504F3, 0, 0⟩] }

theorem test_p5_first : resultOf (Sys2Proof.core.run 1 programP5) = some 0x400000003FB504F3#512 := by decide +kernel
theorem test_p5_second : ∃ t, Sys2Proof.core.run 2 programP5 = .next t ∧ t.illegal = true ∧
    t.raised = some (.illegalOpsel 0x0E) := ⟨_, rfl, by decide⟩
theorem test_p5_third : resultOf (Sys2Proof.core.run 3 programP5) = some 0x400000003F800000#512 := by decide +kernel

/-! ### Witnesses: a state and operands that meet the hypotheses of each obligation that has some -/

/-- Two requests outstanding: a legal one and, behind it, a legal one. -/
def twoLegal : State := { State.reset with requests := [⟨0x10, 1, 2, 3⟩, ⟨0x06, 4, 5, 6⟩] }

/-- An illegal request with a legal one behind it. -/
def illegalThenLegal : State := { State.reset with requests := [⟨0x0E, 1, 2, 3⟩, ⟨0x20, 4, 5, 6⟩] }

/-- A stuck unit with a request outstanding. -/
def stuckUnit : State := { State.reset with stuck := true, requests := [⟨0x10, 1, 2, 3⟩] }

theorem witness_OpcodeMapIsTheSpecsTable : decode 0x2D#8 = .ok .sqrtF64x8 ∧ encode .sqrtF64x8 = 0x2D#8 := by decide
theorem witness_LegalWordsAreExactlyThe39 : decode 0x26 = .ok .fmaF32x8 ∧ decode 0x26 = .ok .fmaF32x8 := by decide
theorem witness_StepRunsTheDecodedOperation : ∃ q rest, twoLegal.resetLine = false ∧ twoLegal.stuck = false ∧
    twoLegal.requests = q :: rest ∧ decode q.opsel = .ok .truncF32x4 ∧ Instr.truncF32x4 ∈ twoLegal.cfg.supported :=
  ⟨_, _, rfl, rfl, rfl, by decide⟩
theorem witness_IllegalRequest_illegal_then_legal : ∃ t, illegalThenLegal.resetLine = false ∧ illegalThenLegal.stuck = false ∧
    illegalThenLegal.requests = ⟨0x0E, 1, 2, 3⟩ :: ⟨0x20, 4, 5, 6⟩ :: [] ∧
    legalOperation illegalThenLegal.cfg 0x0E = .error .fmaBinary64 ∧
    legalOperation illegalThenLegal.cfg 0x20 = .ok .truncF32x8 ∧ step illegalThenLegal = .next t :=
  ⟨_, rfl, rfl, rfl, by decide, by decide, rfl⟩
theorem witness_IllegalRequest_legal : twoLegal.resetLine = false ∧ twoLegal.stuck = false ∧
    twoLegal.requests = ⟨0x10, 1, 2, 3⟩ :: [⟨0x06, 4, 5, 6⟩] ∧ legalOperation twoLegal.cfg 0x10 = .ok .truncF32x4 := by
  exact ⟨rfl, rfl, rfl, by decide⟩
theorem witness_StuckUnit : stuckUnit.stuck = true ∧ stuckUnit.resetLine = false ∧
    ({ stuckUnit with resetLine := true } : State).resetLine = true ∧ ∃ t, step twoLegal = .next t :=
  ⟨rfl, rfl, rfl, _, rfl⟩
theorem witness_ResetDropsRequestsInFlight : ({ stuckUnit with resetLine := true } : State).resetLine = true ∧
    legalOperation stuckUnit.cfg (Request.mk 0x2C 0 0 0).opsel = .ok .roundF64x8 := by
  exact ⟨rfl, by decide⟩
theorem witness_IdleUnit : State.reset.resetLine = false ∧ State.reset.stuck = false ∧ State.reset.requests = [] := by decide
theorem witness_ConfigurationNeverChanges : (∃ t, step twoLegal = .next t) ∧ ∃ t, exec .fmaF32x8 State.reset = .next t :=
  ⟨⟨_, rfl⟩, _, rfl⟩
theorem witness_EveryStepKeepsTheResponseInvariant : ResponseInv illegalThenLegal ∧ ∃ t, step illegalThenLegal = .next t :=
  ⟨⟨fun _ => rfl, fun h => absurd h (by decide)⟩, _, rfl⟩
theorem witness_ResponseInv_presented : ResponseInv
    { State.reset with presented := true, illegal := true, opsel := 0x0E, raised := some (.illegalOpsel 0x0E), r := 5 } :=
  ⟨fun h => absurd h (by decide), fun _ => ⟨by decide, by decide, fun _ h => nomatch
    (by decide : legalOperation Config.default 0x0E = .error .fmaBinary64).symm.trans h⟩⟩
theorem witness_RunAnswersTheRequestsInOrder : twoLegal.responsive ∧ 2 = 1 + 1 ∧
    twoLegal.requests[1]? = some ⟨0x06, 4, 5, 6⟩ := ⟨⟨rfl, rfl⟩, rfl, rfl⟩
theorem witness_AcceptingBehind : twoLegal.responsive ∧ twoLegal.requests ≠ [] := ⟨⟨rfl, rfl⟩, by decide⟩
theorem witness_ResponseDependsOnlyOnItsRequest :
    twoLegal.responsive ∧ ({ twoLegal with requests := [⟨0x10, 1, 2, 3⟩], r := 9, illegal := true } : State).responsive ∧
    twoLegal.requests = ⟨0x10, 1, 2, 3⟩ :: [⟨0x06, 4, 5, 6⟩] := ⟨⟨rfl, rfl⟩, ⟨rfl, rfl⟩, rfl⟩
theorem witness_LanesAreIndependent : 7 < Instr.floorF64x8.lanes.count ∧
    lane Instr.floorF64x8.elem.width (onPort 3 0 0).a 7 = lane Instr.floorF64x8.elem.width (onPort 5 0 0).a 7 ∧
    (onPort 3 0 0).a ≠ (onPort 5 0 0).a := by decide +kernel
/-- Operands whose lane 7 of 32 bits, and lane 3 of 64 bits, is the pattern x in its high half. -/
def topLane (x : Bus) : Bus := x <<< 224

theorem witness_EachLane_fract : 7 < 8 ∧ Rule.e32 (lane 32 (onPort (topLane 0x7F800000) 0 0).a 7) = 255 ∧
    Rule.e64 (lane 64 (onPort (topLane 0xFFF00000) 0 0).a 3) = 2047 := by decide +kernel
theorem witness_EachLane_sqrt_nan : Rule.IsNaN32 (lane 32 (onPort (topLane 0x7F800001) 0 0).a 7) ∧
    Rule.IsNaN64 (lane 64 (onPort (topLane 0xFFF80000) 0 0).a 3) := by decide +kernel
theorem witness_EachLane_sqrt_negative :
    (lane 32 (onPort (topLane 0x80000001) 0 0).a 7).getLsbD 31 = true ∧
    lane 32 (onPort (topLane 0x80000001) 0 0).a 7 &&& 0x7FFFFFFF#32 ≠ 0#32 ∧
    (lane 64 (onPort (topLane 0xFFF00000) 0 0).a 3).getLsbD 63 = true ∧
    lane 64 (onPort (topLane 0xFFF00000) 0 0).a 3 &&& 0x7FFFFFFFFFFFFFFF#64 ≠ 0#64 := by decide +kernel
theorem witness_EachLane_sqrt_choice :
    (lane 32 (onPort (topLane 0x00000001) 0 0).a 7).getLsbD 31 = false ∧ lane 32 (onPort (topLane 0x00000001) 0 0).a 7 ≠ 0#32 ∧
    Rule.e32 (lane 32 (onPort (topLane 0x00000001) 0 0).a 7) ≠ 255 ∧
    (lane 64 (onPort (topLane 0x7FEFFFFF) 0 0).a 3).getLsbD 63 = false ∧ Rule.e64 (lane 64 (onPort (topLane 0x7FEFFFFF) 0 0).a 3) ≠ 2047 ∧
    { Config.default with accSqrtF32 := .faithful }.accSqrtF32 = .faithful ∧ Config.default.accSqrtF64 = .signOnly := by
  decide +kernel
theorem witness_EachLane_fma_nan : Rule.IsNaN32 0x7F800001 ∧ (Rule.IsInf32 0xFF800000 ∧ Rule.IsZero32 0x80000000) ∧
    (Rule.IsInf32 0x7F800000 ∧ Rule.IsInf32 0xFF800000 ∧
      (0xFF800000#32).getLsbD 31 ≠ xor ((0x7F800000#32).getLsbD 31) ((0x3F800000#32).getLsbD 31)) := by decide +kernel
theorem witness_EachLane_other_kinds : Instr.truncF32x2.kind = .trunc ∧ Instr.roundF64x8.kind = .round := by decide
theorem witness_EachLane_illegal : illegalThenLegal.resetLine = false ∧ illegalThenLegal.stuck = false ∧
    illegalThenLegal.requests = ⟨0x0E, 1, 2, 3⟩ :: [⟨0x20, 4, 5, 6⟩] ∧
    legalOperation illegalThenLegal.cfg 0x0E = .error .fmaBinary64 ∧ (∃ t, step illegalThenLegal = .next t) ∧
    ({ stuckUnit with resetLine := true } : State).resetLine = true := ⟨rfl, rfl, rfl, by decide, ⟨_, rfl⟩, rfl⟩
theorem witness_EveryNaNPatternCanBeDrawn : Rule.IsNaN32 0x7F800001 ∧ Rule.IsNaN32 0xFFC00000 ∧
    Rule.IsNaN64 0x7FF0000000000001 := by decide
theorem witness_ReinterpretationAndFields : 0xFFFFFFFF < 2 ^ 32 ∧ 0xFFFFFFFFFFFFFFFF < 2 ^ 64 := by decide
theorem witness_ValueOfALane : Rule.e32 0x00000001 = 0 ∧ Rule.e32 0x7F7FFFFF = 254 ∧ Rule.e64 0x7FEFFFFFFFFFFFFF = 2046 := by decide +kernel
theorem witness_ExponentRegions : region binary32 0x3F800000#32 = .middle ∧ region binary32 0x4AFFFFFF#32 = .middle ∧
    region binary32 0x4B000000#32 = .huge ∧ region binary32 0x3F7FFFFF#32 = .small ∧
    region binary64 0x3FF0000000000000#64 = .middle ∧ region binary64 0x432FFFFFFFFFFFFF#64 = .middle := by decide +kernel
theorem witness_lane_bounds : 7 < 8 ∧ 64 * 2 ≤ 128 ∧ 32 * 8 ≤ 511 := by decide
theorem witness_finite_lanes : isFinite binary32 0xCAFFFFFF#32 = true ∧ isFinite binary64 0xC32FFFFFFFFFFFFF#64 = true ∧
    0xCAFFFFFF#32 ≠ signMask 32 ∧ isZero 0xCAFFFFFF#32 = false ∧ isZero 0xC32FFFFFFFFFFFFF#64 = false := by decide +kernel
theorem witness_IncrementIsOneIntegerStep : region binary32 0xCAFFFFFF#32 = .middle ∧
    0xCAFFFFFF#32 &&& fracMask binary32 0xCAFFFFFF#32 ≠ 0#32 ∧ region binary64 0x4320000000000001#64 = .middle ∧
    0x4320000000000001#64 &&& fracMask binary64 0x4320000000000001#64 ≠ 0#64 := by decide +kernel
theorem witness_exact_values : (Exact.mk false 3 (-150)).M ≠ 0 ∧ representable binary32 ⟨false, 3, -150⟩ = false ∧
    representable binary32 ⟨true, 4, -150⟩ = true ∧ isFinite binary32 (rne binary32 32 ⟨false, 3, -150⟩) = true ∧
    isFinite binary32 (rne binary32 32 ⟨true, 1, 128⟩) = false := by decide +kernel
theorem witness_tie : rne binary32 32 ⟨false, 3, -150⟩ = 0x00000002#32 ∧ rne binary32 32 ⟨false, 5, -150⟩ = 0x00000002#32 := by
  decide +kernel
theorem witness_faithful_exacts : (Exact.mk true 3 (-150)).M ≠ 0 ∧ faithful binary32 32 ⟨true, 3, -150⟩ = [0x80000001#32, 0x80000002#32] ∧
    faithful binary32 32 ⟨true, 1, -200⟩ = [0x80000000#32, 0x80000001#32] ∧
    faithful binary32 32 ⟨true, 1, 128⟩ = [0xFF7FFFFF#32, 0xFF800000#32] ∧
    faithful binary64 64 ⟨true, 1, 1024⟩ = [0xFFEFFFFFFFFFFFFF#64, 0xFFF0000000000000#64] := by decide +kernel

/-- The value of a lane from its exact decoding (R87, R88). -/
theorem value_of_pattern (x : BitVec 32) (v : Exact) (h : decodeLane binary32 x = v) : value binary32 x = v.toRat := by
  rw [value, h]

/-- The worked cancellation of R180: the exact sum is -2^-46, a finite lane. -/
theorem witness_FmaExactResults : isFinite binary32 0x3F800001#32 = true ∧ isFinite binary32 0x3F7FFFFE#32 = true ∧
    isFinite binary32 0xBF800000#32 = true ∧ isFinite binary32 0xA8800000#32 = true ∧
    value binary32 0x3F800001#32 * value binary32 0x3F7FFFFE#32 + value binary32 0xBF800000#32 ≠ 0 ∧
    value binary32 0xA8800000#32 =
      value binary32 0x3F800001#32 * value binary32 0x3F7FFFFE#32 + value binary32 0xBF800000#32 := by
  refine ⟨by decide +kernel, by decide +kernel, by decide +kernel, by decide +kernel, ?_⟩
  rw [value_of_pattern 0x3F800001#32 ⟨false, 2 ^ 23 + 1, -23⟩ (by decide +kernel),
    value_of_pattern 0x3F7FFFFE#32 ⟨false, 2 ^ 24 - 2, -24⟩ (by decide +kernel),
    value_of_pattern 0xBF800000#32 ⟨true, 2 ^ 23, -23⟩ (by decide +kernel),
    value_of_pattern 0xA8800000#32 ⟨true, 2 ^ 23, -69⟩ (by decide +kernel)]
  norm_num [Exact.toRat]

/-- 1 * 2^-126 + 0, the smallest normal. -/
theorem witness_FmaCorrectlyRounded_normal : isFinite binary32 0x3F800000#32 = true ∧ isFinite binary32 0x00800000#32 = true ∧
    isFinite binary32 0x00000000#32 = true ∧ (2 : ℚ) ^ (-126 : Int) ≤
      |value binary32 0x3F800000#32 * value binary32 0x00800000#32 + value binary32 0x00000000#32| := by
  refine ⟨by decide +kernel, by decide +kernel, by decide +kernel, ?_⟩
  rw [value_of_pattern 0x3F800000#32 ⟨false, 2 ^ 23, -23⟩ (by decide +kernel),
    value_of_pattern 0x00800000#32 ⟨false, 2 ^ 23, -149⟩ (by decide +kernel),
    value_of_pattern 0x00000000#32 ⟨false, 0, -149⟩ (by decide +kernel)]
  norm_num [Exact.toRat]

/-- 2^-1 * 2^-149 + 0, below the smallest normal and not representable: the range where cr_normal has a choice. -/
theorem witness_FmaCorrectlyRounded_subnormal : isFinite binary32 0x3F000000#32 = true ∧ isFinite binary32 0x00000001#32 = true ∧
    Rule.e32 0x3F000000#32 ≠ 255 ∧ Rule.e32 0x00000001#32 ≠ 255 ∧ Rule.e32 0x00000000#32 ≠ 255 ∧
    Config.default.accFmaF32 = .crNormal ∧
    faithful binary32 32 (fmaExact binary32 0x3F000000#32 0x00000001#32 0x00000000#32) = [0x00000000#32, 0x00000001#32] ∧
    value binary32 0x3F000000#32 * value binary32 0x00000001#32 + value binary32 0x00000000#32 ≠ 0 ∧
    |value binary32 0x3F000000#32 * value binary32 0x00000001#32 + value binary32 0x00000000#32| < (2 : ℚ) ^ (-126 : Int) := by
  refine ⟨by decide +kernel, by decide +kernel, by decide +kernel, by decide +kernel, by decide +kernel, rfl, by decide +kernel, ?_⟩
  rw [value_of_pattern 0x3F000000#32 ⟨false, 2 ^ 23, -24⟩ (by decide +kernel),
    value_of_pattern 0x00000001#32 ⟨false, 1, -149⟩ (by decide +kernel),
    value_of_pattern 0x00000000#32 ⟨false, 0, -149⟩ (by decide +kernel)]
  norm_num [Exact.toRat]
theorem witness_sqrt_lanes : isFinite binary32 0x00000001#32 = true ∧ sign 0x00000001#32 = false ∧ isZero 0x00000001#32 = false ∧
    isFinite binary64 0x7FEFFFFFFFFFFFFF#64 = true ∧ sign 0x7FEFFFFFFFFFFFFF#64 = false := by decide +kernel
theorem witness_exact_root : isFinite binary32 0x40000000#32 = true ∧ sign 0x40000000#32 = false ∧
    value binary32 0x40000000#32 ^ 2 = value binary32 0x40800000#32 := by
  refine ⟨by decide +kernel, by decide +kernel, ?_⟩
  rw [value_of_pattern 0x40000000#32 ⟨false, 2 ^ 23, -22⟩ (by decide +kernel),
    value_of_pattern 0x40800000#32 ⟨false, 2 ^ 23, -21⟩ (by decide +kernel)]
  norm_num [Exact.toRat]

end Sys2Proof.Tests
end

/-! SUPPORT. The exponent and mantissa fields against the patterns the statements write: Inf, NaN and the magnitude. -/

namespace Sys2Proof.Machine

theorem frac_toNat_lt (F : Fmt) {w : Nat} (hw : F.p ≤ w) (x : BitVec w) : (frac F x).toNat < 2 ^ F.p := by
  rw [frac_toNat F hw]
  exact Nat.mod_lt _ (Nat.two_pow_pos _)

theorem magnitude_toNat_eq_fields (F : Fmt) {w : Nat} (hw : w = 1 + F.ew + F.p) (x : BitVec w) :
    (magnitude x).toNat = expField F x * 2 ^ F.p + (frac F x).toNat := by
  have hmod : x.toNat % 2 ^ (w - 1) % 2 ^ F.p = x.toNat % 2 ^ F.p :=
    Nat.mod_mod_of_dvd _ (Nat.pow_dvd_pow 2 (by omega))
  rw [magnitude_toNat, expField_eq, frac_toNat F (by omega), ← hmod, Nat.div_add_mod']

theorem posInf_toNat (F : Fmt) {w : Nat} (hw : w = 1 + F.ew + F.p) :
    (posInf F w).toNat = F.expOnes * 2 ^ F.p := by
  rw [posInf, BitVec.toNat_ofNat, Nat.mod_eq_of_lt]
  calc F.expOnes * 2 ^ F.p < 2 ^ F.ew * 2 ^ F.p :=
        Nat.mul_lt_mul_of_pos_right (Nat.sub_lt (Nat.two_pow_pos _) Nat.one_pos) (Nat.two_pow_pos _)
    _ = 2 ^ (F.ew + F.p) := (Nat.pow_add 2 F.ew F.p).symm
    _ ≤ 2 ^ w := Nat.pow_le_pow_right (by decide) (by omega)

/-- Masking with the all-ones exponent leaves the exponent field in place. -/
theorem and_posInf_toNat (F : Fmt) {w : Nat} (hw : w = 1 + F.ew + F.p) (x : BitVec w) :
    (x &&& posInf F w).toNat = expField F x * 2 ^ F.p := by
  apply Nat.eq_of_testBit_eq
  intro i
  rw [BitVec.toNat_and, posInf_toNat F hw, expField_eq, Fmt.expOnes]
  simp only [Nat.testBit_and, Nat.testBit_mul_two_pow, Nat.testBit_two_pow_sub_one, Nat.testBit_div_two_pow,
    Nat.testBit_mod_two_pow]
  by_cases hi : F.p ≤ i
  · have hlt : i - F.p < F.ew ↔ i - F.p + F.p < w - 1 := by omega
    simp [hi, hlt, Bool.and_comm]
  · simp [hi]

theorem and_posInf_eq_iff (F : Fmt) {w : Nat} (hw : w = 1 + F.ew + F.p) (x : BitVec w) :
    x &&& posInf F w = posInf F w ↔ expField F x = F.expOnes := by
  rw [← BitVec.toNat_inj, and_posInf_toNat F hw, posInf_toNat F hw, Nat.mul_left_inj (Nat.two_pow_pos _).ne']

/-- A NaN by its bits: the exponent field all ones and a bit of the mantissa set (R91). -/
theorem isNaN_iff (F : Fmt) {w : Nat} (hw : w = 1 + F.ew + F.p) (x : BitVec w) :
    isNaN F x = true ↔ x &&& posInf F w = posInf F w ∧ x &&& mantissaMask F w ≠ 0 := by
  rw [and_posInf_eq_iff F hw, isNaN, Bool.and_eq_true, beq_iff_eq, bne_iff_ne, frac]

/-- An infinity by its magnitude (R92). -/
theorem isInf_iff (F : Fmt) {w : Nat} (hw : w = 1 + F.ew + F.p) (x : BitVec w) :
    isInf F x = true ↔ magnitude x = posInf F w := by
  have hf := frac_toNat_lt F (by omega) x
  rw [isInf, Bool.and_eq_true, beq_iff_eq, beq_iff_eq, frac_eq_zero_iff, ← BitVec.toNat_inj,
    magnitude_toNat_eq_fields F hw, posInf_toNat F hw]
  constructor
  · rintro ⟨hE, hz⟩
    rw [hE, hz, Nat.add_zero]
  · intro h
    have hE : expField F x = F.expOnes := by
      have := congrArg (· / 2 ^ F.p) h
      simpa [Nat.mul_add_div, Nat.mul_comm _ (2 ^ F.p), Nat.div_eq_of_lt hf] using this
    rw [hE] at h
    exact ⟨hE, by omega⟩

theorem isZero_iff {w : Nat} (x : BitVec w) : isZero x = true ↔ magnitude x = 0 := beq_iff_eq

theorem isNaN_eq_false_of_expField_ne (F : Fmt) {w : Nat} {x : BitVec w} (h : expField F x ≠ F.expOnes) :
    isNaN F x = false := by
  simp [isNaN, h]

theorem isInf_eq_false_of_expField_ne (F : Fmt) {w : Nat} {x : BitVec w} (h : expField F x ≠ F.expOnes) :
    isInf F x = false := by
  simp [isInf, h]

theorem isNaN_posInf (F : Fmt) {w : Nat} (hw : w = 1 + F.ew + F.p) : isNaN F (posInf F w) = false := by
  have hz : (frac F (posInf F w)).toNat = 0 := by
    rw [frac_toNat F (by omega), posInf_toNat F hw, Nat.mul_mod_left]
  simp [isNaN, (frac_eq_zero_iff F _).mpr hz]

theorem expField_posInf (F : Fmt) {w : Nat} (hw : w = 1 + F.ew + F.p) : expField F (posInf F w) = F.expOnes :=
  (and_posInf_eq_iff F hw _).mp (BitVec.and_self)

theorem sign_posInf (F : Fmt) {w : Nat} (hw : w = 1 + F.ew + F.p) : sign (posInf F w) = false := by
  have hlt : F.expOnes * 2 ^ F.p < 2 ^ (w - 1) := by
    rw [show w - 1 = F.ew + F.p by omega, Nat.pow_add]
    exact Nat.mul_lt_mul_of_pos_right (Nat.sub_lt (Nat.two_pow_pos _) Nat.one_pos) (Nat.two_pow_pos _)
  rw [sign, BitVec.msb_eq_false_iff_two_mul_lt, posInf_toNat F hw, show w = w - 1 + 1 by omega, Nat.pow_succ]
  omega

theorem magnitude_ne_zero_of_isNaN (F : Fmt) {w : Nat} (hw : w = 1 + F.ew + F.p) {x : BitVec w}
    (h : isNaN F x = true) : magnitude x ≠ 0 := by
  intro hm
  have hfields := magnitude_toNat_eq_fields F hw x
  rw [hm, BitVec.ofNat_eq_ofNat, BitVec.toNat_zero] at hfields
  have hfrac : frac F x = 0 := (frac_eq_zero_iff F x).mpr (by omega)
  simp [isNaN, hfrac] at h

theorem magnitude_ne_zero_of_sign_false {w : Nat} {x : BitVec w} (hs : sign x = false) (hx : x ≠ 0) :
    magnitude x ≠ 0 := by
  intro hm
  have hlt : 2 * x.toNat < 2 ^ w := BitVec.msb_eq_false_iff_two_mul_lt.mp hs
  have hmod : x.toNat % 2 ^ (w - 1) = 0 := by
    rw [← magnitude_toNat, hm, BitVec.ofNat_eq_ofNat, BitVec.toNat_zero]
  cases w with
  | zero => exact hx (BitVec.of_length_zero)
  | succ n =>
    rw [Nat.pow_succ] at hlt
    rw [Nat.add_sub_cancel, Nat.mod_eq_of_lt (by omega)] at hmod
    exact hx (BitVec.eq_of_toNat_eq hmod)

end Sys2Proof.Machine

/-! SUPPORT. The literals of the statements' pseudocode are the model's fields and classes. -/

namespace Sys2Proof.Rule

open Sys2Proof.Machine

theorem e32_eq_expField (x : BitVec 32) : e32 x = expField binary32 x := rfl

theorem e64_eq_expField (x : BitVec 64) : e64 x = expField binary64 x := rfl

theorem isNaN32_iff (x : BitVec 32) : IsNaN32 x ↔ isNaN binary32 x = true := (isNaN_iff binary32 rfl x).symm

theorem isNaN64_iff (x : BitVec 64) : IsNaN64 x ↔ isNaN binary64 x = true := (isNaN_iff binary64 rfl x).symm

theorem isInf32_iff (x : BitVec 32) : IsInf32 x ↔ isInf binary32 x = true := (isInf_iff binary32 rfl x).symm

theorem isZero32_iff (x : BitVec 32) : IsZero32 x ↔ isZero x = true := (isZero_iff x).symm

theorem getLsbD_31_eq_sign (x : BitVec 32) : x.getLsbD 31 = sign x := (BitVec.msb_eq_getLsbD_last x).symm

theorem getLsbD_63_eq_sign (x : BitVec 64) : x.getLsbD 63 = sign x := (BitVec.msb_eq_getLsbD_last x).symm

end Sys2Proof.Rule

/-! SUPPORT. The exact value of an fma lane (R182), its binade, and the faithful set of a representable value (R90). -/

namespace Sys2Proof.Machine

theorem toRat_exactProduct (x y : Exact) : (exactProduct x y).toRat = x.toRat * y.toRat := by
  obtain ⟨sx, Mx, kx⟩ := x
  obtain ⟨sy, My, ky⟩ := y
  cases sx <;> cases sy <;> simp [exactProduct, Exact.toRat, zpow_add₀] <;> ring

/-- Scaling an exact value down to a smaller exponent keeps its value. -/
theorem signedScaled_mul_zpow (v : Exact) {k0 : Int} (h : k0 ≤ v.k) :
    (signedScaled v.s v.M (v.k - k0).toNat : ℚ) * 2 ^ k0 = v.toRat := by
  have hpow : (2 : ℚ) ^ (v.k - k0).toNat * 2 ^ k0 = 2 ^ v.k := by
    rw [← zpow_natCast, ← zpow_add₀ two_ne_zero, Int.toNat_of_nonneg (by omega), Int.sub_add_cancel]
  unfold signedScaled Exact.toRat
  rw [← hpow]
  cases v.s <;> simp <;> ring

/-- An integer times a power of two, kept as sign and magnitude. -/
theorem toRat_sign_natAbs (n : Int) (k : Int) : Exact.toRat ⟨decide (n < 0), n.natAbs, k⟩ = (n : ℚ) * 2 ^ k := by
  by_cases h : n < 0
  · have habs : (n.natAbs : ℚ) = -(n : ℚ) := by
      rw [Nat.cast_natAbs, abs_of_neg h, Int.cast_neg]
    simp [Exact.toRat, h, habs]
  · have habs : (n.natAbs : ℚ) = (n : ℚ) := by
      rw [Nat.cast_natAbs, abs_of_nonneg (by omega)]
    simp [Exact.toRat, h, habs]

theorem toRat_exactSum (x y : Exact) : (exactSum x y).toRat = x.toRat + y.toRat := by
  rw [exactSum, toRat_sign_natAbs, Int.cast_add, add_mul, signedScaled_mul_zpow x (min_le_left _ _),
    signedScaled_mul_zpow y (min_le_right _ _)]

/-- `Nv * 2^k0` is the exact value of `a*b + c` (R182). -/
theorem toRat_fmaExact (F : Fmt) {w : Nat} (a b c : BitVec w) :
    (fmaExact F a b c).toRat = value F a * value F b + value F c := by
  rw [fmaExact, toRat_exactSum, toRat_exactProduct, value, value, value]

theorem abs_toRat (v : Exact) : |v.toRat| = (v.M : ℚ) * 2 ^ v.k := by
  have hnonneg : (0 : ℚ) ≤ (v.M : ℚ) * 2 ^ v.k := by positivity
  rw [Exact.toRat, mul_assoc, abs_mul, abs_of_nonneg hnonneg]
  cases v.s <;> simp

theorem M_ne_zero_of_toRat_ne_zero {v : Exact} (h : v.toRat ≠ 0) : v.M ≠ 0 := by
  intro hM
  exact h (by simp [Exact.toRat, hM])

/-- The lower bound of a value's binade: `2^ex <= M * 2^k` (R89). -/
theorem two_zpow_binade_le_abs_toRat {v : Exact} (h : v.M ≠ 0) : (2 : ℚ) ^ binade v.M v.k ≤ |v.toRat| := by
  have hlen : ((bitLength v.M : Int) - 1) = ((bitLength v.M - 1 : Nat) : Int) := by
    rw [bitLength, if_neg h]; simp
  have hle : (2 : ℚ) ^ (bitLength v.M - 1) ≤ (v.M : ℚ) := by exact_mod_cast (bitLength_bounds v.M h).1
  rw [abs_toRat, binade, zpow_add₀ two_ne_zero, hlen, zpow_natCast]
  exact mul_le_mul_of_nonneg_right hle (by positivity)

/-- A nonzero value below the smallest normal does not pass for a normal one (R181). -/
theorem atLeastNormal_eq_false_of_abs_lt (F : Fmt) {v : Exact} (h0 : v.toRat ≠ 0)
    (hlt : |v.toRat| < (2 : ℚ) ^ (1 - (F.bias : Int))) : atLeastNormal F v = false := by
  have hbinade := (two_zpow_binade_le_abs_toRat (M_ne_zero_of_toRat_ne_zero h0)).trans_lt hlt
  have := (zpow_lt_zpow_iff_right₀ one_lt_two).mp hbinade
  exact decide_eq_false (not_le.mpr this)

/-- With no bit below the quantum, rounding to nearest and rounding down agree. -/
theorem roundNearest_eq_roundDown {M : Nat} {sh : Int} (h : sh ≤ 0 ∨ M % 2 ^ sh.toNat = 0) :
    roundNearest M sh = roundDown M sh := by
  unfold roundNearest roundDown
  by_cases hsh : sh ≤ 0
  · rw [if_pos hsh, if_pos hsh]
  · have hexact : M % 2 ^ sh.toNat = 0 := h.resolve_left hsh
    have hhalf := Nat.two_pow_pos (sh.toNat - 1)
    rw [if_neg hsh, if_neg hsh]
    simp only [hexact]
    rw [if_neg (by omega)]

/-- RNE of a representable value is its own pattern, RD (R90). -/
theorem rne_eq_faithfulDown (F : Fmt) (w : Nat) {v : Exact} (h : representable F v = true) :
    rne F w v = withSign v.s (faithfulDown F v) := by
  simp only [representable, Bool.and_eq_true, Bool.or_eq_true, decide_eq_true_eq, beq_iff_eq] at h
  obtain ⟨hmax, hexact⟩ := h
  rw [rne, faithfulDown, if_neg (by omega), roundNearest_eq_roundDown hexact]

/-- Of a representable value the faithful set has one member, so its choice is RNE whatever is drawn (R90). -/
theorem faithfulChoice_of_representable (F : Fmt) {w : Nat} (d : BitVec w) {v : Exact}
    (h : representable F v = true) : faithfulChoice F d v = rne F w v := by
  rw [faithfulChoice, faithfulUp, if_pos h, choose, ite_self, rne_eq_faithfulDown F w h]

/-- Below the smallest normal `cr_normal` chooses as `faithful` does (R181). -/
theorem fmaChoice_crNormal_of_subnormal (F : Fmt) {w : Nat} (d : BitVec w) {v : Exact}
    (h : atLeastNormal F v = false) : fmaChoice F .crNormal d v = faithfulChoice F d v := by
  cases hr : representable F v with
  | true => simp [fmaChoice, hr, faithfulChoice_of_representable F d hr]
  | false => simp [fmaChoice, h, hr]

end Sys2Proof.Machine

/-! SUPPORT. Which branch of a lane function reads the lane's free value (R103, R150, R180). -/

namespace Sys2Proof.Machine

theorem fract_eq_anyNaN (F : Fmt) {w : Nat} (d : BitVec w) {x : BitVec w} (h : expField F x = F.expOnes) :
    fract F d x = anyNaN F d := by
  rw [fract_eq, if_pos h]

theorem sqrt_eq_anyNaN (F : Fmt) {w : Nat} (hw : w = 1 + F.ew + F.p) (acc : SqrtAcc) (d : BitVec w) {x : BitVec w}
    (h : isNaN F x = true ∨ (sign x = true ∧ magnitude x ≠ 0)) : sqrt F acc d x = anyNaN F d := by
  have hx : x ≠ posInf F w := by
    rintro rfl
    simp [isNaN_posInf F hw, sign_posInf F hw] at h
  have hm : magnitude x ≠ 0 := h.elim (magnitude_ne_zero_of_isNaN F hw) And.right
  rw [sqrt, if_neg (not_or.mpr ⟨hx, hm⟩), if_pos (h.imp_right And.left)]

theorem sqrt_eq_sqrtChoice (F : Fmt) {w : Nat} (hw : w = 1 + F.ew + F.p) (acc : SqrtAcc) (d : BitVec w)
    {x : BitVec w} (hs : sign x = false) (h0 : x ≠ 0) (hE : expField F x ≠ F.expOnes) :
    sqrt F acc d x = sqrtChoice F acc d x := by
  have hx : x ≠ posInf F w := by
    rintro rfl
    exact hE (expField_posInf F hw)
  rw [sqrt, if_neg (not_or.mpr ⟨hx, magnitude_ne_zero_of_sign_false hs h0⟩),
    if_neg (by simp [hs, isNaN_eq_false_of_expField_ne F hE])]

theorem fma_eq_anyNaN (F : Fmt) (acc : FmaAcc) {w : Nat} (d : BitVec w) {a b c : BitVec w}
    (h : (isNaN F a = true ∨ isNaN F b = true ∨ isNaN F c = true) ∨
      ((isInf F a = true ∧ isZero b = true) ∨ (isZero a = true ∧ isInf F b = true)) ∨
      ((isInf F a = true ∨ isInf F b = true) ∧ isInf F c = true ∧ sign c ≠ xor (sign a) (sign b))) :
    fma F acc d a b c = anyNaN F d := by
  rw [fma]
  rcases h with hnan | hprod | ⟨hinf, hsub⟩
  · exact if_pos hnan
  · rw [if_pos hprod, ite_self]
  · rw [if_pos hinf, if_pos hsub, ite_self, ite_self]

theorem fma_eq_fmaChoice (F : Fmt) (acc : FmaAcc) {w : Nat} (d : BitVec w) {a b c : BitVec w}
    (ha : expField F a ≠ F.expOnes) (hb : expField F b ≠ F.expOnes) (hc : expField F c ≠ F.expOnes)
    (hM : (fmaExact F a b c).M ≠ 0) : fma F acc d a b c = fmaChoice F acc d (fmaExact F a b c) := by
  simp [fma, hM, isNaN_eq_false_of_expField_ne F ha, isNaN_eq_false_of_expField_ne F hb,
    isNaN_eq_false_of_expField_ne F hc, isInf_eq_false_of_expField_ne F ha, isInf_eq_false_of_expField_ne F hb,
    isInf_eq_false_of_expField_ne F hc]

/-- The count of draws cannot reach the result of an operation whose lane function reads no free value. -/
theorem unaryResult_draws (w n : Nat) (op : BitVec w → BitVec w) (s : State) (m : Nat) :
    unaryResult w n (fun _ x => op x) { s with draws := m } = unaryResult w n (fun _ x => op x) s := rfl

/-- trunc, floor, ceil and round are unary operations whose lane function reads no free value. -/
theorem exec_of_rounding_kind (i : Instr)
    (h : i.kind = .trunc ∨ i.kind = .floor ∨ i.kind = .ceil ∨ i.kind = .round) :
    ∃ (w n : Nat) (op : BitVec w → BitVec w), ∀ s, exec i s = answerUnary w n (fun _ x => op x) s := by
  cases i <;> simp [Instr.kind, Instr.parts] at h <;> exact ⟨_, _, _, fun _ => rfl⟩

theorem exec_draws_le {i : Instr} {s t : State} (h : exec i s = .next t) : s.draws ≤ t.draws := by
  obtain ⟨v, hv⟩ := exec_answer i s
  cases hv.symm.trans h
  simp

/-- No step lowers the count of draws (log 6). -/
theorem step_draws_le {s t : State} (h : step s = .next t) : s.draws ≤ t.draws := by
  rcases step_cases s with ⟨-, hs⟩ | ⟨-, -, hs⟩ | ⟨-, -, hs⟩ | ⟨q, rest, i, -, -, -, hs⟩ | ⟨q, rest, e, -, -, -, hs⟩
  · cases hs.symm.trans h
    simp
  · cases hs.symm.trans h
  · cases hs.symm.trans h
    simp
  · simpa using exec_draws_le (hs.symm.trans h)
  · cases hs.symm.trans h
    simp

theorem step_reset {s : State} (h : s.resetLine = true) : step s = .next s.takeReset := by
  simp [step, h]

theorem step_illegal {s : State} {q : Request} {rest : List Request} {e : IllegalReason}
    (hr : s.resetLine = false) (hs : s.stuck = false) (hq : s.requests = q :: rest)
    (he : legalOperation s.cfg q.opsel = .error e) : step s = .next (s.takeRequest q rest).takeIllegalOpsel := by
  simp [step, hr, hs, hq, he]

end Sys2Proof.Machine

/-! PROOF. Every lane draws at its own index (O20): the shapes UnaryDraws and TernaryDraws from the lane functions,
one lane fact per operation and format, and the obligation. -/

namespace Sys2Proof.Rule

open Sys2Proof.Machine

/-- An operation that applies `op` to each lane draws as `op` does in one lane. -/
theorem unaryDraws_of_exec {i : Instr} {w n : Nat} {drawn : Config → BitVec w → BitVec w → BitVec w → Prop}
    (op : Config → BitVec w → BitVec w → BitVec w) (hexec : ∀ s, exec i s = answerUnary w n (op s.cfg) s)
    (hn : w * n ≤ 512) (hop : ∀ g x d, drawn g x d (op g d x)) : UnaryDraws i w n drawn := by
  intro s
  refine ⟨_, (hexec s).trans (answerUnary_next w n _ s), State.answer_draws s _ n, fun k hk => ?_⟩
  rw [State.answer_r, lane_unaryResult w n _ s k hn hk]
  exact hop _ _ _

/-- The same of a ternary operation. -/
theorem ternaryDraws_of_exec {i : Instr} {w n : Nat}
    {drawn : Config → BitVec w → BitVec w → BitVec w → BitVec w → BitVec w → Prop}
    (op : Config → BitVec w → BitVec w → BitVec w → BitVec w → BitVec w)
    (hexec : ∀ s, exec i s = answerTernary w n (op s.cfg) s)
    (hn : w * n ≤ 512) (hop : ∀ g a b c d, drawn g a b c d (op g d a b c)) : TernaryDraws i w n drawn := by
  intro s
  refine ⟨_, (hexec s).trans (answerTernary_next w n _ s), State.answer_draws s _ n, fun k hk => ?_⟩
  rw [State.answer_r, lane_ternaryResult w n _ s k hn hk]
  exact hop _ _ _ _ _

theorem fractDrawsF32_fract (g : Config) (x d : BitVec 32) : FractDrawsF32 g x d (fract binary32 d x) :=
  fract_eq_anyNaN binary32 d

theorem fractDrawsF64_fract (g : Config) (x d : BitVec 64) : FractDrawsF64 g x d (fract binary64 d x) :=
  fract_eq_anyNaN binary64 d

theorem sqrtDrawsF32_sqrt (g : Config) (x d : BitVec 32) :
    SqrtDrawsF32 g x d (sqrt binary32 g.accSqrtF32 d x) := by
  refine ⟨fun h => ?_, fun hs h0 hE => ?_⟩
  · rw [isNaN32_iff, getLsbD_31_eq_sign] at h
    exact sqrt_eq_anyNaN binary32 rfl _ d h
  · rw [getLsbD_31_eq_sign] at hs
    have hchoice := fun acc => sqrt_eq_sqrtChoice binary32 (w := 32) rfl acc d hs h0 hE
    exact ⟨fun hacc => hacc ▸ hchoice .faithful, fun hacc => hacc ▸ hchoice .signOnly⟩

theorem sqrtDrawsF64_sqrt (g : Config) (x d : BitVec 64) :
    SqrtDrawsF64 g x d (sqrt binary64 g.accSqrtF64 d x) := by
  refine ⟨fun h => ?_, fun hs h0 hE => ?_⟩
  · rw [isNaN64_iff, getLsbD_63_eq_sign] at h
    exact sqrt_eq_anyNaN binary64 rfl _ d h
  · rw [getLsbD_63_eq_sign] at hs
    have hchoice := fun acc => sqrt_eq_sqrtChoice binary64 (w := 64) rfl acc d hs h0 hE
    exact ⟨fun hacc => hacc ▸ hchoice .faithful, fun hacc => hacc ▸ hchoice .signOnly⟩

theorem fmaDrawsF32_fma (g : Config) (a b c d : BitVec 32) :
    FmaDrawsF32 g a b c d (fma binary32 g.accFmaF32 d a b c) := by
  refine ⟨fun h => ?_, fun ha hb hc hv hacc => ⟨_, _, rfl, ?_⟩⟩
  · simp only [isNaN32_iff, isInf32_iff, isZero32_iff, getLsbD_31_eq_sign] at h
    exact fma_eq_anyNaN binary32 _ d (by simpa only [or_assoc] using h)
  · rw [← toRat_fmaExact] at hv hacc
    rw [fma_eq_fmaChoice binary32 _ d ha hb hc (M_ne_zero_of_toRat_ne_zero hv)]
    rcases hacc with hacc | ⟨hacc, hlt⟩ <;> rw [hacc]
    · rfl
    · exact fmaChoice_crNormal_of_subnormal binary32 d (atLeastNormal_eq_false_of_abs_lt binary32 hv hlt)

theorem fractF32_draws {i : Instr} {n : Nat}
    (hexec : ∀ s, exec i s = answerUnary 32 n (fun d x => fract binary32 d x) s) (hn : 32 * n ≤ 512) :
    UnaryDraws i 32 n FractDrawsF32 :=
  unaryDraws_of_exec _ hexec hn fractDrawsF32_fract

theorem fractF64_draws {i : Instr} {n : Nat}
    (hexec : ∀ s, exec i s = answerUnary 64 n (fun d x => fract binary64 d x) s) (hn : 64 * n ≤ 512) :
    UnaryDraws i 64 n FractDrawsF64 :=
  unaryDraws_of_exec _ hexec hn fractDrawsF64_fract

theorem sqrtF32_draws {i : Instr} {n : Nat}
    (hexec : ∀ s, exec i s = answerUnary 32 n (fun d x => sqrt binary32 s.cfg.accSqrtF32 d x) s)
    (hn : 32 * n ≤ 512) : UnaryDraws i 32 n SqrtDrawsF32 :=
  unaryDraws_of_exec (fun g d x => sqrt binary32 g.accSqrtF32 d x) hexec hn sqrtDrawsF32_sqrt

theorem sqrtF64_draws {i : Instr} {n : Nat}
    (hexec : ∀ s, exec i s = answerUnary 64 n (fun d x => sqrt binary64 s.cfg.accSqrtF64 d x) s)
    (hn : 64 * n ≤ 512) : UnaryDraws i 64 n SqrtDrawsF64 :=
  unaryDraws_of_exec (fun g d x => sqrt binary64 g.accSqrtF64 d x) hexec hn sqrtDrawsF64_sqrt

theorem fmaF32_draws {i : Instr} {n : Nat}
    (hexec : ∀ s, exec i s = answerTernary 32 n (fun d a b c => fma binary32 s.cfg.accFmaF32 d a b c) s)
    (hn : 32 * n ≤ 512) : TernaryDraws i 32 n FmaDrawsF32 :=
  ternaryDraws_of_exec (fun g d a b c => fma binary32 g.accFmaF32 d a b c) hexec hn fmaDrawsF32_fma

/-- Settles O20: each form's lanes draw as its lane function does at the lane's own index; the four kinds without a
free result read no draw; an illegal request, a reset step and every other step move the count as said. -/
theorem eachLaneHasItsOwnDraw : Obligations.EachLaneHasItsOwnDraw := by
  refine ⟨fractF32_draws (fun _ => rfl) ?_, fractF32_draws (fun _ => rfl) ?_, fractF32_draws (fun _ => rfl) ?_,
    fractF64_draws (fun _ => rfl) ?_, fractF64_draws (fun _ => rfl) ?_, fractF64_draws (fun _ => rfl) ?_,
    sqrtF32_draws (fun _ => rfl) ?_, sqrtF32_draws (fun _ => rfl) ?_, sqrtF32_draws (fun _ => rfl) ?_,
    sqrtF64_draws (fun _ => rfl) ?_, sqrtF64_draws (fun _ => rfl) ?_, sqrtF64_draws (fun _ => rfl) ?_,
    fmaF32_draws (fun _ => rfl) ?_, fmaF32_draws (fun _ => rfl) ?_, fmaF32_draws (fun _ => rfl) ?_,
    ?rounding, ?illegal, ?reset, fun _ _ => step_draws_le⟩
  case rounding =>
    intro i hkind s m
    obtain ⟨w, n, op, hexec⟩ := exec_of_rounding_kind i hkind
    exact ⟨_, _, hexec s, hexec _, (unaryResult_draws w n op s m).symm⟩
  case illegal => exact fun s q rest e hr hs hq he => ⟨_, step_illegal hr hs hq he, rfl, rfl⟩
  case reset => exact fun s hr => ⟨_, step_reset hr, rfl, rfl, rfl⟩
  all_goals decide

end Sys2Proof.Rule

/-! SUPPORT. What an operation leaves in R and in the configuration, and the reasoning rules of the response port's
invariant: one for a state without a response, one per kind of response. -/

namespace Sys2Proof.Machine

theorem vectorBits_le_bus (i : Instr) : i.vectorBits ≤ 512 := by
  have hcount : i.lanes.count ≤ 8 := by cases i.lanes <;> decide
  have hwidth : i.elem.width ≤ 64 := by cases i.elem <;> decide
  exact Nat.mul_le_mul hcount hwidth

/-- Every operation's answer is its lanes packed, of the operation's own width and number (R27, R95). -/
theorem exec_answer_packLanes (i : Instr) (s : State) :
    ∃ f, exec i s = .next (s.answer (packLanes i.elem.width f i.lanes.count) i.lanes.count) := by
  cases i <;> exact ⟨_, rfl⟩

theorem packLanes_vectorBits_high (i : Instr) (f : Nat → BitVec i.elem.width) {j : Nat} (hj : i.vectorBits ≤ j) :
    (packLanes i.elem.width f i.lanes.count).getLsbD j = false := by
  have hbits : i.elem.width * i.lanes.count = i.vectorBits := Nat.mul_comm _ _
  have hpos : 0 < i.elem.width := by cases i.elem <;> decide
  exact packLanes_high _ hpos f _ j (hbits ▸ vectorBits_le_bus i) (hbits ▸ hj)

theorem exec_cfg {i : Instr} {s t : State} (h : exec i s = .next t) : t.cfg = s.cfg := by
  obtain ⟨v, hv⟩ := exec_answer i s
  cases hv.symm.trans h
  exact State.answer_cfg s v _

theorem step_cfg {s t : State} (h : step s = .next t) : t.cfg = s.cfg := by
  rcases step_cases s with ⟨-, hs⟩ | ⟨-, -, hs⟩ | ⟨-, -, hs⟩ | ⟨q, rest, i, -, -, -, hs⟩ | ⟨q, rest, e, -, -, -, hs⟩
  · cases hs.symm.trans h
    exact State.takeReset_cfg s
  · cases hs.symm.trans h
  · cases hs.symm.trans h
    exact State.idle_cfg s
  · exact (exec_cfg (hs.symm.trans h)).trans (State.takeRequest_cfg s q rest)
  · cases hs.symm.trans h
    rw [State.takeIllegalOpsel_cfg, State.takeRequest_cfg]

theorem illegalBit_of_ok {g : Config} {w : Opsel} {i : Instr} (h : legalOperation g w = .ok i) :
    illegalBit g w = false := by
  simp [illegalBit, h]

theorem illegalBit_of_error {g : Config} {w : Opsel} {e : IllegalReason} (h : legalOperation g w = .error e) :
    illegalBit g w = true := by
  simp [illegalBit, h]

theorem responseInv_of_not_presented {s : State} (hp : s.presented = false) (hr : s.raised = none) :
    ResponseInv s :=
  ⟨fun _ => hr, fun h => absurd (hp.symm.trans h) Bool.false_ne_true⟩

/-- The response of the operation that the OPSEL on the port names meets the invariant. -/
theorem responseInv_of_exec {i : Instr} {s t : State} (hlegal : legalOperation s.cfg s.opsel = .ok i)
    (h : exec i s = .next t) : ResponseInv t := by
  obtain ⟨f, hf⟩ := exec_answer_packLanes i s
  cases hf.symm.trans h
  refine ⟨(nomatch ·), fun _ => ⟨(illegalBit_of_ok hlegal).symm, rfl, fun i' hi' j hj => ?_⟩⟩
  cases hlegal.symm.trans hi'
  exact packLanes_vectorBits_high i f hj

/-- The response to an OPSEL that names no operation meets the invariant: the clause on R asks nothing of it. -/
theorem responseInv_takeIllegalOpsel {s : State} {e : IllegalReason}
    (hillegal : legalOperation s.cfg s.opsel = .error e) : ResponseInv s.takeIllegalOpsel :=
  ⟨(nomatch ·), fun _ =>
    ⟨(illegalBit_of_error hillegal).symm, rfl, fun _ hi => nomatch hillegal.symm.trans hi⟩⟩

/-- The invariant holds after every step, whatever held before: a step either presents a fresh response to the
request it puts on the port or withdraws the marks. -/
theorem responseInv_of_step {s t : State} (h : step s = .next t) : ResponseInv t := by
  rcases step_cases s with ⟨-, hs⟩ | ⟨-, -, hs⟩ | ⟨-, -, hs⟩ | ⟨q, rest, i, -, -, hl, hs⟩ | ⟨q, rest, e, -, -, hl, hs⟩
  · cases hs.symm.trans h
    exact responseInv_of_not_presented (State.takeReset_presented s) (State.takeReset_raised s)
  · cases hs.symm.trans h
  · cases hs.symm.trans h
    exact responseInv_of_not_presented (State.idle_presented s) (State.idle_raised s)
  · exact responseInv_of_exec (s := s.takeRequest q rest) hl (hs.symm.trans h)
  · cases hs.symm.trans h
    exact responseInv_takeIllegalOpsel (s := s.takeRequest q rest) hl

end Sys2Proof.Machine

/-! PROOF. The invariant of the response port (O14) and the constancy of the configuration (O12). -/

namespace Sys2Proof.Rule

open Sys2Proof.Machine

/-- Settles O14, by the cases of a step: the state reached meets the invariant by itself. -/
theorem everyStepKeepsTheResponseInvariant : Obligations.EveryStepKeepsTheResponseInvariant :=
  fun _ _ _ => responseInv_of_step

/-- Settles O12, by the cases of a step and the one answer of an operation. -/
theorem configurationNeverChanges : Obligations.ConfigurationNeverChanges :=
  ⟨fun _ _ => step_cfg, fun _ _ _ => exec_cfg⟩

end Sys2Proof.Rule

/-! SUPPORT. What an operation's result reads: the lanes of A, B and C, the configuration and the count of draws. -/

namespace Sys2Proof.Machine

theorem unaryResult_congr (w n : Nat) (op : BitVec w → BitVec w → BitVec w) {s s' : State}
    (hdraws : s.draws = s'.draws) (ha : s.a = s'.a) : unaryResult w n op s = unaryResult w n op s' := by
  simp only [unaryResult, State.laneDraw, hdraws, ha]

theorem ternaryResult_congr (w n : Nat) (op : BitVec w → BitVec w → BitVec w → BitVec w → BitVec w)
    {s s' : State} (hdraws : s.draws = s'.draws) (ha : s.a = s'.a) (hb : s.b = s'.b) (hc : s.c = s'.c) :
    ternaryResult w n op s = ternaryResult w n op s' := by
  simp only [ternaryResult, State.laneDraw, hdraws, ha, hb, hc]

/-- Every operation applies one lane function to its lanes, and of the state that lane function reads the
configuration only: sqrt and fma their accuracy, the rounding family nothing (R95, R150, R180). -/
theorem exec_unary_or_ternary (i : Instr) :
    (∃ op : Config → BitVec i.elem.width → BitVec i.elem.width → BitVec i.elem.width,
      ∀ s, exec i s = answerUnary i.elem.width i.lanes.count (op s.cfg) s) ∨
    (∃ op : Config → BitVec i.elem.width → BitVec i.elem.width → BitVec i.elem.width → BitVec i.elem.width →
        BitVec i.elem.width,
      ∀ s, exec i s = answerTernary i.elem.width i.lanes.count (op s.cfg) s) := by
  cases i
  case sqrtF32x2 | sqrtF32x4 | sqrtF32x8 =>
    exact .inl ⟨fun g d x => sqrt binary32 g.accSqrtF32 d x, fun _ => rfl⟩
  case sqrtF64x2 | sqrtF64x4 | sqrtF64x8 =>
    exact .inl ⟨fun g d x => sqrt binary64 g.accSqrtF64 d x, fun _ => rfl⟩
  case fmaF32x2 | fmaF32x4 | fmaF32x8 =>
    exact .inr ⟨fun g d a b c => fma binary32 g.accFmaF32 d a b c, fun _ => rfl⟩
  all_goals exact .inl ⟨fun _ => _, fun _ => rfl⟩

/-- Two states with the same operands, configuration and count of draws get the same R from an operation. -/
theorem exec_answer_same (i : Instr) {s s' : State} (hcfg : s.cfg = s'.cfg) (hdraws : s.draws = s'.draws)
    (ha : s.a = s'.a) (hb : s.b = s'.b) (hc : s.c = s'.c) :
    ∃ v, exec i s = .next (s.answer v i.lanes.count) ∧ exec i s' = .next (s'.answer v i.lanes.count) := by
  rcases exec_unary_or_ternary i with ⟨op, hop⟩ | ⟨op, hop⟩
  · refine ⟨_, (hop s).trans (answerUnary_next ..), ?_⟩
    rw [hop s', answerUnary_next, hcfg, unaryResult_congr _ _ _ hdraws ha]
  · refine ⟨_, (hop s).trans (answerTernary_next ..), ?_⟩
    rw [hop s', answerTernary_next, hcfg, ternaryResult_congr _ _ _ hdraws ha hb hc]

theorem step_legal {s : State} {q : Request} {rest : List Request} {i : Instr}
    (hr : s.resetLine = false) (hs : s.stuck = false) (hq : s.requests = q :: rest)
    (hi : legalOperation s.cfg q.opsel = .ok i) : step s = exec i (s.takeRequest q rest) := by
  simp [step, hr, hs, hq, hi]

end Sys2Proof.Machine

/-! PROOF. A response depends on its own request only (O17). -/

namespace Sys2Proof.Rule

open Sys2Proof.Machine

/-- Settles O17: taking the request puts the same operands on both ports, and the response to it, legal or illegal,
reads nothing else but the configuration and the count of draws. -/
theorem responseDependsOnlyOnItsRequest : Obligations.ResponseDependsOnlyOnItsRequest := by
  intro s s' q rest rest' ⟨hs, hr⟩ ⟨hs', hr'⟩ hq hq' hcfg hdraws
  cases hl : legalOperation s.cfg q.opsel with
  | ok i =>
    obtain ⟨v, hv, hv'⟩ := exec_answer_same i (s := s.takeRequest q rest) (s' := s'.takeRequest q rest')
      hcfg hdraws rfl rfl rfl
    exact ⟨_, _, (step_legal hr hs hq hl).trans hv, (step_legal hr' hs' hq' (hcfg ▸ hl)).trans hv', rfl, rfl, rfl, rfl⟩
  | error e =>
    exact ⟨_, _, step_illegal hr hs hq hl, step_illegal hr' hs' hq' (hcfg ▸ hl), congrArg Config.freeValue hdraws,
      rfl, rfl, rfl⟩

end Sys2Proof.Rule

/-! SUPPORT. The decoder inverts the encoder, and the words it accepts are those whose fields combine (R60 to R67,
R70); against an instance, the operation must be in SUPPORTED too (R10, R71). -/

namespace Sys2Proof

open Sys2Proof.Machine

theorem Instr.mem_all (i : Instr) : i ∈ Instr.all := by
  cases i <;> decide

/-- Every row of the opcode map holds the word that the field tables give its operation (R61 to R63, R70). -/
theorem encode_of_mem_opcodeMap : ∀ row ∈ opcodeMap, encode row.2 = row.1 := by
  decide

@[simp] theorem decode_encode (i : Instr) : decode (encode i) = .ok i := by
  cases i <;> rfl

theorem decode_eq_ok_iff_lookup {w : Opsel} {i : Instr} : decode w = .ok i ↔ opcodeMap.lookup w = some i := by
  rw [decode]
  cases opcodeMap.lookup w <;> simp

/-- A word decodes to an operation exactly when it is that operation's encoding; so no two words do. -/
theorem decode_eq_ok_iff {w : Opsel} {i : Instr} : decode w = .ok i ↔ encode i = w := by
  constructor
  · intro h
    obtain ⟨before, after, hmap, -⟩ := List.lookup_eq_some_iff.mp (decode_eq_ok_iff_lookup.mp h)
    exact encode_of_mem_opcodeMap (w, i) (by simp [hmap])
  · rintro rfl
    exact decode_encode i

theorem opselWf_encode (i : Instr) : opselWf (encode i) = true := by
  cases i <;> rfl

/-- Every combination of fields that R66 allows is some operation's word. -/
theorem mem_map_encode_of_opselWf : ∀ w : Opsel, opselWf w = true → w ∈ Instr.all.map encode := by
  decide

/-- The opcode map lists exactly the words that are well formed by their fields (R66). -/
theorem exists_decode_iff_opselWf (w : Opsel) : (∃ i, decode w = .ok i) ↔ opselWf w = true := by
  simp only [decode_eq_ok_iff]
  constructor
  · rintro ⟨i, rfl⟩
    exact opselWf_encode i
  · intro h
    obtain ⟨i, -, hi⟩ := List.mem_map.mp (mem_map_encode_of_opselWf w h)
    exact ⟨i, hi⟩

theorem opselWf_iff (w : Opsel) : opselWf w = true ↔
    rsvField w = 0b00#2 ∧ lnField w ≠ 0b11#2 ∧ opField w ≠ 0b111#3 ∧
      ¬(opField w = 0b110#3 ∧ fmtField w = 0b1#1) := by
  simp [opselWf, rsvField, lnField, opField, fmtField, and_assoc, -not_and, not_and_or]

/-- The lane counts that R63 names are all but the reserved one. -/
theorem lnField_mem_iff : ∀ l : BitVec 2, l ∈ [0b00#2, 0b01#2, 0b10#2] ↔ l ≠ 0b11#2 := by
  decide

/-- The kinds that R61 names, fma in binary32 only, are all but the reserved one and the binary64 fma. -/
theorem opField_fmtField_mem_iff : ∀ (o : BitVec 3) (f : BitVec 1),
    (o ∈ [0b000#3, 0b001#3, 0b010#3, 0b011#3, 0b100#3, 0b101#3] ∨ (o = 0b110#3 ∧ f = 0b0#1)) ↔
      o ≠ 0b111#3 ∧ ¬(o = 0b110#3 ∧ f = 0b1#1) := by
  decide

theorem legalOperation_eq_ok_iff {g : Config} {w : Opsel} {i : Instr} :
    legalOperation g w = .ok i ↔ decode w = .ok i ∧ i ∈ g.supported := by
  rw [legalOperation]
  cases decode w with
  | error e => simp
  | ok j =>
    constructor
    · intro h
      by_cases hj : j ∈ g.supported
      · cases (if_pos hj).symm.trans h
        exact ⟨rfl, hj⟩
      · exact nomatch (if_neg hj).symm.trans h
    · rintro ⟨⟨⟩, hi⟩
      exact if_pos hi

/-- An instance rejects a word for its fields, or for the operation they name (R71). -/
theorem exists_legalOperation_error_iff (g : Config) (w : Opsel) :
    (∃ e, legalOperation g w = .error e) ↔
      ¬opselWf w = true ∨ ∃ i, decode w = .ok i ∧ i ∉ g.supported := by
  rw [← exists_decode_iff_opselWf, legalOperation]
  cases decode w with
  | error e => simp
  | ok i => by_cases hi : i ∈ g.supported <;> simp [hi]

/-- The default SUPPORTED holds every operation (R10), so there the fields of a word alone decide. -/
theorem illegalBit_default (w : Opsel) : illegalBit Config.default w = !opselWf w := by
  cases h : legalOperation Config.default w with
  | ok i =>
    have hwf := (exists_decode_iff_opselWf w).mp ⟨i, (legalOperation_eq_ok_iff.mp h).1⟩
    rw [illegalBit_of_ok h, hwf, Bool.not_true]
  | error e =>
    rcases (exists_legalOperation_error_iff _ w).mp ⟨e, h⟩ with hwf | ⟨i, -, hi⟩
    · rw [illegalBit_of_error h, Bool.eq_false_of_not_eq_true hwf, Bool.not_false]
    · exact absurd i.mem_all hi

end Sys2Proof

/-! PROOF. The opcode map (O1), the legal words (O3), the illegal words of an instance (O4) and the step of a legal
request (O5). -/

namespace Sys2Proof.Rule

open Sys2Proof.Machine

/-- An operation's row of the opcode map: its word, itself, the parts of its name and its N·W (R70). -/
def opcodeRow (i : Instr) : Opsel × Instr × OpKind × ElemType × LaneCount × Nat :=
  (encode i, i, i.kind, i.elem, i.lanes, i.vectorBits)

/-- Settles O1: the table is the list of the operations' own rows, and a word decodes as the encoder says. -/
theorem opcodeMapIsTheSpecsTable : Obligations.OpcodeMapIsTheSpecsTable := by
  intro row hrow
  change row ∈ Instr.all.map opcodeRow at hrow
  obtain ⟨i, -, rfl⟩ := List.mem_map.mp hrow
  exact ⟨decode_encode i, rfl, rfl, rfl, rfl, rfl⟩

/-- Settles O3, by the encoder: decoding succeeds on the well-formed words, and each is one operation's encoding. -/
theorem legalWordsAreExactlyThe39 : Obligations.LegalWordsAreExactlyThe39 := by
  refine ⟨fun w => ?_, fun v w i hv hw => ?_, fun i => ⟨i.mem_all, decode_encode i⟩, rfl, by decide⟩
  · rw [exists_decode_iff_opselWf, opselWf_iff, lnField_mem_iff, opField_fmtField_mem_iff]
    rfl
  · exact (decode_eq_ok_iff.mp hv).symm.trans (decode_eq_ok_iff.mp hw)

/-- Settles O4: the negation of the well-formed words' condition, with SUPPORTED beside it; by default the words
counted are those that are not well formed. -/
theorem illegalWordsOfEveryInstance : Obligations.IllegalWordsOfEveryInstance := by
  refine ⟨fun g w => ?_, ?_⟩
  · rw [exists_legalOperation_error_iff, opselWf_iff]
    simp only [rsvField, lnField, opField, fmtField]
    tauto
  · simp only [illegalBit_default]
    decide +kernel

/-- Settles O5: an operation that decodes and is in SUPPORTED is the legal operation of the word taken. -/
theorem stepRunsTheDecodedOperation : Obligations.StepRunsTheDecodedOperation :=
  fun _ _ _ _ hreset hstuck hrequests hdecode hsupported =>
    step_legal hreset hstuck hrequests (legalOperation_eq_ok_iff.mpr ⟨hdecode, hsupported⟩)

end Sys2Proof.Rule

/-! SUPPORT. What the two element formats have in common (R8), and the magnitude patterns in order of value (R87). -/

namespace Sys2Proof.Machine

/-- What the two element formats have in common (R8): the width is 1 + EW + p, with at least one mantissa bit and two
exponent bits. -/
structure LaneFormat (F : Fmt) (w : Nat) : Prop where
  width : w = 1 + F.ew + F.p
  p_pos : 0 < F.p
  two_le_ew : 2 ≤ F.ew

theorem laneFormat_binary32 : LaneFormat binary32 32 := ⟨rfl, by decide, by decide⟩

theorem laneFormat_binary64 : LaneFormat binary64 64 := ⟨rfl, by decide, by decide⟩

/-- The magnitude pattern of an infinity; the finite magnitudes are the patterns below it. -/
def infPattern (F : Fmt) : Nat := F.expOnes * 2 ^ F.p

section
variable {F : Fmt} {w : Nat} (hF : LaneFormat F w)
include hF

theorem LaneFormat.one_lt : 1 < w := by
  have := hF.width
  have := hF.p_pos
  omega

theorem LaneFormat.p_lt : F.p < w := by
  have := hF.width
  omega

theorem LaneFormat.bias_pos : 0 < F.bias := by
  have := Nat.pow_le_pow_right (n := 2) (by decide) (show 1 ≤ F.ew - 1 from Nat.le_sub_one_of_lt hF.two_le_ew)
  rw [Fmt.bias]
  omega

theorem LaneFormat.expOnes_eq : F.expOnes = 2 * F.bias + 1 := by
  have hpos := Nat.two_pow_pos (F.ew - 1)
  have hpow : 2 ^ F.ew = 2 * 2 ^ (F.ew - 1) := by
    rw [← Nat.pow_succ', Nat.succ_eq_add_one, Nat.sub_add_cancel (by have := hF.two_le_ew; omega)]
  rw [Fmt.expOnes, Fmt.bias]
  omega

theorem LaneFormat.infPattern_lt : infPattern F < 2 ^ (w - 1) := by
  rw [show w - 1 = F.ew + F.p by have := hF.width; omega, Nat.pow_add]
  exact Nat.mul_lt_mul_of_pos_right (Nat.sub_lt (Nat.two_pow_pos _) Nat.one_pos) (Nat.two_pow_pos _)

theorem LaneFormat.infPattern_pos : 0 < infPattern F :=
  Nat.mul_pos (by rw [hF.expOnes_eq]; omega) (Nat.two_pow_pos _)

/-- So MAX, the pattern before it, has an odd mantissa. -/
theorem LaneFormat.infPattern_even : infPattern F % 2 = 0 := by
  obtain ⟨m, hm⟩ := Nat.exists_eq_succ_of_ne_zero hF.p_pos.ne'
  rw [infPattern, hm, Nat.pow_succ, ← Nat.mul_assoc, Nat.mul_mod_left]

/-- A significand below the carry stands for a finite pattern exactly when its exponent is at most the bias. -/
theorem LaneFormat.pattern_lt_infPattern_iff {E q : Nat} (hq : q < 2 * 2 ^ F.p) (hE : E = 0 ∨ 2 ^ F.p ≤ q) :
    E * 2 ^ F.p + q < infPattern F ↔ E < 2 * F.bias := by
  have hbias := hF.bias_pos
  rw [infPattern, hF.expOnes_eq, Nat.add_mul, Nat.one_mul]
  constructor
  · intro h
    by_contra hge
    have := Nat.mul_le_mul_right (2 ^ F.p) (Nat.le_of_not_lt hge)
    omega
  · intro h
    have := Nat.mul_le_mul_right (2 ^ F.p) (Nat.succ_le_of_lt h)
    rw [Nat.succ_mul] at this
    omega

end

/-- How many binades the quantum of the magnitude pattern n lies above the subnormals' quantum. -/
def quantumIndex (F : Fmt) (n : Nat) : Nat := n / 2 ^ F.p - 1

/-- The value of the magnitude pattern n (R87), continued by the same formula from the infinity's pattern on, so that
the patterns of all natural numbers rise in value. -/
def magValue (F : Fmt) (n : Nat) : ℚ :=
  ((n - quantumIndex F n * 2 ^ F.p : Nat) : ℚ) * 2 ^ ((quantumIndex F n : Int) + 1 - F.bias - F.p)

/-- A significand in its binade, or carried to the next one, has its own value. -/
theorem magValue_pattern (F : Fmt) {E q : Nat} (hE : E = 0 ∨ 2 ^ F.p ≤ q) (hq : q ≤ 2 * 2 ^ F.p) :
    magValue F (E * 2 ^ F.p + q) = (q : ℚ) * 2 ^ ((E : Int) + 1 - F.bias - F.p) := by
  have hpos := Nat.two_pow_pos F.p
  have hdiv : (E * 2 ^ F.p + q) / 2 ^ F.p = E + q / 2 ^ F.p := by
    rw [Nat.add_comm, Nat.add_mul_div_right _ _ hpos, Nat.add_comm]
  rcases hq.lt_or_eq with hlt | rfl
  · have hidx : quantumIndex F (E * 2 ^ F.p + q) = E := by
      rw [quantumIndex, hdiv]
      rcases Nat.lt_or_ge q (2 ^ F.p) with h | h
      · rw [Nat.div_eq_of_lt h]
        omega
      · rw [Nat.div_eq_of_lt_le (k := 1) (by omega) (by omega)]
        omega
    rw [magValue, hidx, Nat.add_sub_cancel_left]
  · have hidx : quantumIndex F (E * 2 ^ F.p + 2 * 2 ^ F.p) = E + 1 := by
      rw [quantumIndex, hdiv, Nat.mul_div_cancel _ hpos]
      omega
    have hsub : E * 2 ^ F.p + 2 * 2 ^ F.p - (E + 1) * 2 ^ F.p = 2 ^ F.p := by
      rw [Nat.succ_mul E]
      omega
    have hexp : ((E + 1 : Nat) : Int) + 1 - F.bias - F.p = (E + 1 - F.bias - F.p) + 1 := by
      push_cast
      ring
    rw [magValue, hidx, hsub, hexp, zpow_add_one₀ two_ne_zero]
    push_cast
    ring

/-- Every pattern is a significand in its binade. -/
theorem exists_pattern (F : Fmt) (n : Nat) :
    ∃ E q, n = E * 2 ^ F.p + q ∧ (E = 0 ∨ 2 ^ F.p ≤ q) ∧ q < 2 * 2 ^ F.p := by
  have hdiv := Nat.div_add_mod' n (2 ^ F.p)
  have hmod := Nat.mod_lt n (Nat.two_pow_pos F.p)
  rcases hE : n / 2 ^ F.p with _ | E
  · exact ⟨0, n, by simp, .inl rfl, by rw [hE] at hdiv; omega⟩
  · rw [hE, Nat.succ_mul] at hdiv
    exact ⟨E, 2 ^ F.p + n % 2 ^ F.p, by omega, .inr (by omega), by omega⟩

theorem magValue_zero (F : Fmt) : magValue F 0 = 0 := by
  simp [magValue]

theorem magValue_strictMono (F : Fmt) : StrictMono (magValue F) := by
  refine strictMono_nat_of_lt_succ fun n => ?_
  obtain ⟨E, q, rfl, hE, hq⟩ := exists_pattern F n
  rw [Nat.add_assoc, magValue_pattern F hE hq.le, magValue_pattern F (hE.imp_right (Nat.le_succ_of_le ·)) hq]
  push_cast
  gcongr
  exact lt_add_one _

theorem magValue_nonneg (F : Fmt) (n : Nat) : 0 ≤ magValue F n :=
  (magValue_zero F).symm.trans_le ((magValue_strictMono F).monotone (Nat.zero_le n))

end Sys2Proof.Machine

/-! SUPPORT. A lane as sign and magnitude, and its value by its fields (R85 to R87). -/

namespace Sys2Proof.Machine

theorem isFinite_iff_expField (F : Fmt) {w : Nat} (x : BitVec w) : isFinite F x = true ↔ expField F x ≠ F.expOnes :=
  bne_iff_ne

/-- The value of a finite lane by its fields (R87). -/
theorem value_eq_fields (F : Fmt) {w : Nat} (hw : F.p ≤ w) (x : BitVec w) :
    value F x = (if sign x then -1 else 1) *
      (if expField F x = 0 then ((frac F x).toNat : ℚ) * 2 ^ ((1 : Int) - F.bias - F.p)
       else (2 ^ F.p + ((frac F x).toNat : ℚ)) * 2 ^ ((expField F x : Int) - F.bias - F.p)) := by
  have hor : (frac F x).toNat ||| 2 ^ F.p = 2 ^ F.p + (frac F x).toNat := by
    simpa [Nat.or_comm] using (Nat.two_pow_add_eq_or_of_lt (frac_toNat_lt F hw x) 1).symm
  rw [value, decodeLane]
  by_cases hE : expField F x = 0
  · rw [if_pos hE, if_pos hE, Exact.toRat, mul_assoc]
  · rw [if_neg hE, if_neg hE, Exact.toRat, hor, mul_assoc]
    push_cast
    rfl

section
variable {F : Fmt} {w : Nat} (hF : LaneFormat F w)
include hF

/-- The value of a lane is its magnitude pattern's, with its sign. -/
theorem value_eq_magValue (x : BitVec w) :
    value F x = (if sign x then -1 else 1) * magValue F (magnitude x).toNat := by
  have hfrac := frac_toNat_lt F hF.p_lt.le x
  rw [value_eq_fields F hF.p_lt.le, magnitude_toNat_eq_fields F hF.width]
  congr 1
  split_ifs with hE
  · rw [hE, magValue_pattern F (.inl rfl) (by omega), Nat.cast_zero, zero_add]
  · obtain ⟨E, hsucc⟩ := Nat.exists_eq_succ_of_ne_zero hE
    rw [hsucc, Nat.succ_mul, Nat.add_assoc, magValue_pattern F (.inr (by omega)) (by omega)]
    push_cast
    rfl

theorem abs_value (x : BitVec w) : |value F x| = magValue F (magnitude x).toNat := by
  rw [value_eq_magValue hF, abs_mul, abs_of_nonneg (magValue_nonneg F _)]
  cases sign x <;> simp

theorem isFinite_iff_lt (x : BitVec w) : isFinite F x = true ↔ (magnitude x).toNat < infPattern F := by
  have hfrac := frac_toNat_lt F hF.p_lt.le x
  have hle := expField_le F hF.width x
  rw [isFinite_iff_expField, magnitude_toNat_eq_fields F hF.width, infPattern]
  constructor
  · intro hne
    have := Nat.mul_le_mul_right (2 ^ F.p) (Nat.succ_le_of_lt (hle.lt_of_ne hne))
    rw [Nat.succ_mul] at this
    omega
  · intro hlt heq
    rw [heq] at hlt
    omega

end

/-- A sign above a magnitude, as a number. -/
theorem withSign_toNat {w : Nat} (hw : 0 < w) (s : Bool) {mag : Nat} (h : mag < 2 ^ (w - 1)) :
    (withSign s mag : BitVec w).toNat = s.toNat * 2 ^ (w - 1) + mag := by
  have hlt : mag < 2 ^ w := h.trans_le (Nat.pow_le_pow_right (by decide) (by omega))
  rw [withSign, BitVec.toNat_or, BitVec.toNat_ofNat, Nat.mod_eq_of_lt hlt]
  cases s
  · simp
  · rw [if_pos rfl, signMask_toNat w hw]
    simpa using (Nat.two_pow_add_eq_or_of_lt h 1).symm

theorem sign_withSign {w : Nat} (hw : 0 < w) (s : Bool) {mag : Nat} (h : mag < 2 ^ (w - 1)) :
    sign (withSign s mag : BitVec w) = s := by
  rw [sign, BitVec.msb_eq_decide, withSign_toNat hw s h]
  cases s <;> simp [h]

theorem magnitude_withSign_toNat {w : Nat} (hw : 0 < w) (s : Bool) {mag : Nat} (h : mag < 2 ^ (w - 1)) :
    (magnitude (withSign s mag : BitVec w)).toNat = mag := by
  rw [magnitude_toNat, withSign_toNat hw s h, Nat.mul_add_mod_self_right, Nat.mod_eq_of_lt h]

theorem withSign_sign_magnitude {F : Fmt} {w : Nat} (hF : LaneFormat F w) (x : BitVec w) :
    withSign (sign x) (magnitude x).toNat = x := by
  have hlt : (magnitude x).toNat < 2 ^ (w - 1) := by
    rw [magnitude_toNat]
    exact Nat.mod_lt _ (Nat.two_pow_pos _)
  apply BitVec.eq_of_toNat_eq
  rw [withSign_toNat (Nat.zero_lt_of_lt hF.one_lt) _ hlt, magnitude_toNat_eq_fields F hF.width, ← Nat.add_assoc,
    ← lane_decompose F hF.width]

theorem withSign_getLsbD_zero {w : Nat} (hw : 1 < w) (s : Bool) (mag : Nat) :
    (withSign s mag : BitVec w).getLsbD 0 = decide (mag % 2 = 1) := by
  have hmask : (signMask w).getLsbD 0 = false := by
    rw [signMask_getLsbD, decide_eq_false (show ¬ 0 = w - 1 by omega), Bool.and_false]
  rw [withSign, BitVec.getLsbD_or, BitVec.getLsbD_ofNat, Nat.testBit_zero]
  cases s
  · simp [Nat.zero_lt_of_lt hw]
  · rw [if_pos rfl, hmask]
    simp [Nat.zero_lt_of_lt hw]

/-- The infinity of sign s, as the constants write it (R92). -/
theorem withSign_infPattern (F : Fmt) (w : Nat) (s : Bool) :
    (withSign s (infPattern F) : BitVec w) = if s then signMask w ||| posInf F w else posInf F w := by
  cases s <;> simp [withSign, infPattern, posInf]

end Sys2Proof.Machine

/-! SUPPORT. The fields of a lane as bit ranges, the classes by their fields, and the NaN draw (R80 to R86, R91). -/

namespace Sys2Proof.Machine

theorem sign_eq_getLsbD {w : Nat} (x : BitVec w) : sign x = x.getLsbD (w - 1) := BitVec.msb_eq_getLsbD_last x

theorem fromBits_bits {w : Nat} (x : BitVec w) : fromBits w (bits x) = x := by
  rw [fromBits, bits, BitVec.ofNat_toNat, BitVec.setWidth_eq]

theorem bits_fromBits {w u : Nat} (h : u < 2 ^ w) : bits (fromBits w u) = u :=
  (BitVec.toNat_ofNat u w).trans (Nat.mod_eq_of_lt h)

theorem fromBits_getLsbD {w u : Nat} (h : u < 2 ^ w) (j : Nat) : (fromBits w u).getLsbD j = u.testBit j := by
  rw [← BitVec.testBit_toNat]
  exact congrArg (Nat.testBit · j) (bits_fromBits h)

/-- Clearing the sign bit twice is clearing it once. -/
theorem magnitude_magnitude {w : Nat} (x : BitVec w) : magnitude (magnitude x) = magnitude x := by
  rw [magnitude, magnitude, BitVec.and_assoc, BitVec.and_self]

theorem expField_magnitude (F : Fmt) {w : Nat} (x : BitVec w) : expField F (magnitude x) = expField F x := by
  rw [expField, magnitude_magnitude, expField]

theorem frac_magnitude (F : Fmt) {w : Nat} (hw : F.p < w) (x : BitVec w) : frac F (magnitude x) = frac F x := by
  apply BitVec.eq_of_toNat_eq
  rw [frac_toNat F hw.le, frac_toNat F hw.le, magnitude_toNat]
  exact Nat.mod_mod_of_dvd _ (Nat.pow_dvd_pow 2 (by omega))

theorem sign_magnitude {w : Nat} (hw : 0 < w) (x : BitVec w) : sign (magnitude x) = false := by
  rw [sign_eq_getLsbD, magnitude, magMask, BitVec.getLsbD_and, BitVec.getLsbD_not, signMask_getLsbD]
  simp [hw]

theorem and_eq_zero_of_or_and_eq_zero {w : Nat} {x y m : BitVec w} (h : (x ||| y) &&& m = 0) : x &&& m = 0 := by
  have habsorb : x &&& m = x &&& ((x ||| y) &&& m) := by
    ext i hi
    cases hx : x[i] <;> simp [hx]
  rw [habsorb, h, BitVec.ofNat_eq_ofNat, BitVec.and_zero]

section
variable {F : Fmt} {w : Nat} (hF : LaneFormat F w)
include hF

/-- The exponent field is the EW bits below the sign (R81). -/
theorem expField_eq_extractLsb' (x : BitVec w) : expField F x = (x.extractLsb' F.p F.ew).toNat := by
  have hw := hF.width
  rw [expField_eq, BitVec.extractLsb'_toNat, Nat.shiftRight_eq_div_pow, show w - 1 = F.p + F.ew by omega, Nat.pow_add,
    Nat.mod_mul_right_div_self]

/-- The mantissa field is the low p bits (R81). -/
theorem frac_toNat_eq_extractLsb' (x : BitVec w) : (frac F x).toNat = (x.extractLsb' 0 F.p).toNat := by
  rw [frac_toNat F hF.p_lt.le, BitVec.extractLsb'_toNat, Nat.shiftRight_zero]

theorem unbiasedExp_bounds (x : BitVec w) :
    -(F.bias : Int) ≤ unbiasedExp F x ∧ unbiasedExp F x ≤ F.bias + 1 := by
  have hle := expField_le F hF.width x
  rw [hF.expOnes_eq] at hle
  rw [unbiasedExp]
  omega

/-- The value of a finite lane by the bits of the layout (R81, R87). -/
theorem value_eq_layout (x : BitVec w) :
    value F x = (if x.getLsbD (w - 1) then -1 else 1) *
      (if expField F x = 0 then ((x.extractLsb' 0 F.p).toNat : ℚ) * 2 ^ ((1 : Int) - F.bias - F.p)
       else (2 ^ F.p + ((x.extractLsb' 0 F.p).toNat : ℚ)) * 2 ^ ((expField F x : Int) - F.bias - F.p)) := by
  rw [value_eq_fields F hF.p_lt.le, sign_eq_getLsbD, frac_toNat_eq_extractLsb' hF]

/-- The conditions of the class table (R86). -/
theorem classify_table (x : BitVec w) :
    (classify F x = .zero ↔ expField F x = 0 ∧ frac F x = 0) ∧
    (classify F x = .subnormal ↔ expField F x = 0 ∧ frac F x ≠ 0) ∧
    (classify F x = .normal ↔ 1 ≤ expField F x ∧ expField F x ≤ F.expOnes - 1) ∧
    (classify F x = .infinity ↔ expField F x = F.expOnes ∧ frac F x = 0) ∧
    (classify F x = .quietNaN ↔ expField F x = F.expOnes ∧ frac F x ≠ 0 ∧ x.getLsbD (F.p - 1) = true) ∧
    (classify F x = .signalingNaN ↔ expField F x = F.expOnes ∧ frac F x ≠ 0 ∧ x.getLsbD (F.p - 1) = false) := by
  have hle := expField_le F hF.width x
  have hones : F.expOnes ≠ 0 := by
    rw [hF.expOnes_eq]
    omega
  by_cases hzero : expField F x = 0
  · by_cases hf : frac F x = 0#w <;> simp [classify, hzero, hf, hones.symm]
  · by_cases hmax : expField F x = F.expOnes
    · have hnormal : ¬ F.expOnes ≤ F.expOnes - 1 := by omega
      by_cases hf : frac F x = 0#w
      · simp [classify, hf, hmax, hones, hnormal]
      · cases hq : x.getLsbD (F.p - 1) <;> simp [classify, hf, hmax, hones, hnormal, hq]
    · have hnormal : 1 ≤ expField F x ∧ expField F x ≤ F.expOnes - 1 := by omega
      simp [classify, hzero, hmax, hnormal]

theorem mantissaMask_getLsbD_zero : (mantissaMask F w).getLsbD 0 = true := by
  have hw := hF.width
  have hp := hF.p_pos
  rw [mantissaMask, BitVec.getLsbD_ofNat, Nat.testBit_two_pow_sub_one, Bool.and_eq_true, decide_eq_true_eq,
    decide_eq_true_eq]
  omega

/-- The draw of every free value is a NaN (R91). -/
theorem isNaN_anyNaN (d : BitVec w) : isNaN F (anyNaN F d) = true := by
  have hpos := Nat.zero_lt_of_lt hF.one_lt
  rw [isNaN_iff F hF.width, anyNaN]
  split_ifs with hfrac
  · refine ⟨by ext i; simp +contextual, fun hzero => ?_⟩
    have hbit := congrArg (·.getLsbD 0) hzero
    simp only [BitVec.getLsbD_and, BitVec.getLsbD_or, BitVec.getLsbD_one, mantissaMask_getLsbD_zero hF, hpos] at hbit
    simp at hbit
  · exact ⟨by ext i; simp +contextual, fun hzero => hfrac (and_eq_zero_of_or_and_eq_zero hzero)⟩

/-- A NaN is the draw of itself. -/
theorem anyNaN_of_isNaN {x : BitVec w} (h : isNaN F x = true) : anyNaN F x = x := by
  obtain ⟨hexp, hfrac⟩ := (isNaN_iff F hF.width x).mp h
  rw [anyNaN, if_neg (by rwa [frac])]
  nth_rw 1 [← hexp]
  ext i
  simp +contextual

end

end Sys2Proof.Machine

/-! PROOF. The bit reinterpretation layer: fields (O22), exponents (O23), classes (O24), constants (O25), values (O26),
the high half (O27) and NaN draws (O21); and the independence of lanes (O18). -/

namespace Sys2Proof.Rule

open Sys2Proof.Machine

/-- Settles O18: every operation applies one lane function, which reads lane k of the operands, the lane's draw and the
configuration. -/
theorem lanesAreIndependent : Obligations.LanesAreIndependent := by
  intro i s s' k hk hcfg hdraws ha hb hc
  have hbits : i.elem.width * i.lanes.count ≤ 512 := Nat.mul_comm i.lanes.count _ ▸ vectorBits_le_bus i
  have hdraw : s.laneDraw i.elem.width k = s'.laneDraw i.elem.width k := by
    rw [State.laneDraw, State.laneDraw, hdraws]
  rcases exec_unary_or_ternary i with ⟨op, hop⟩ | ⟨op, hop⟩
  · refine ⟨_, _, (hop s).trans (answerUnary_next ..), (hop s').trans (answerUnary_next ..), ?_⟩
    rw [State.answer_r, State.answer_r, lane_unaryResult _ _ _ _ _ hbits hk, lane_unaryResult _ _ _ _ _ hbits hk, hcfg,
      hdraw, ha]
  · refine ⟨_, _, (hop s).trans (answerTernary_next ..), (hop s').trans (answerTernary_next ..), ?_⟩
    rw [State.answer_r, State.answer_r, lane_ternaryResult _ _ _ _ _ hbits hk, lane_ternaryResult _ _ _ _ _ hbits hk,
      hcfg, hdraw, ha, hb, hc]

/-- Settles O21: every draw is a NaN, and a NaN as free value draws itself. -/
theorem everyNaNPatternCanBeDrawn : Obligations.EveryNaNPatternCanBeDrawn :=
  ⟨fun d => (isNaN32_iff _).mpr (isNaN_anyNaN laneFormat_binary32 d),
    fun x hx => ⟨x, anyNaN_of_isNaN laneFormat_binary32 ((isNaN32_iff x).mp hx)⟩,
    fun d => (isNaN64_iff _).mpr (isNaN_anyNaN laneFormat_binary64 d),
    fun x hx => ⟨x, anyNaN_of_isNaN laneFormat_binary64 ((isNaN64_iff x).mp hx)⟩⟩

/-- Settles O22, for each format by the position of its fields. -/
theorem reinterpretationAndFields : Obligations.ReinterpretationAndFields :=
  ⟨fun x => ⟨fun _ => BitVec.testBit_toNat x, fromBits_bits x, sign_eq_getLsbD x,
      expField_eq_extractLsb' laneFormat_binary32 x, frac_toNat_eq_extractLsb' laneFormat_binary32 x, rfl,
      sign_magnitude (by decide) x, expField_magnitude binary32 x, frac_magnitude binary32 (by decide) x⟩,
    fun _ h => ⟨bits_fromBits h, fromBits_getLsbD h⟩,
    fun x => ⟨fun _ => BitVec.testBit_toNat x, fromBits_bits x, sign_eq_getLsbD x,
      expField_eq_extractLsb' laneFormat_binary64 x, frac_toNat_eq_extractLsb' laneFormat_binary64 x, rfl,
      sign_magnitude (by decide) x, expField_magnitude binary64 x, frac_magnitude binary64 (by decide) x⟩,
    fun _ h => ⟨bits_fromBits h, fromBits_getLsbD h⟩⟩

/-- Settles O23: the bounds of the exponent field, for each format. -/
theorem exponentExtraction : Obligations.ExponentExtraction :=
  ⟨fun x => ⟨rfl, expField_le binary32 rfl x, rfl, unbiasedExp_bounds laneFormat_binary32 x⟩,
    fun x => ⟨rfl, expField_le binary64 rfl x, rfl, unbiasedExp_bounds laneFormat_binary64 x⟩⟩

/-- Settles O24: the class table, for each format; its literals are the fields and constants of the format. -/
theorem classificationByTheTable : Obligations.ClassificationByTheTable :=
  ⟨classify_table laneFormat_binary32, classify_table laneFormat_binary64⟩

/-- Settles O25: each constant is a closed pattern. -/
theorem constantPatterns : Obligations.ConstantPatterns := by
  unfold Obligations.ConstantPatterns
  decide

/-- Settles O26: the value by the fields of the layout, for each format. -/
theorem valueOfALane : Obligations.ValueOfALane :=
  ⟨fun x _ => value_eq_layout laneFormat_binary32 x, fun x _ => value_eq_layout laneFormat_binary64 x⟩

/-- Settles O27: the product of two 32-bit numbers is below 2^64, so neither reading loses a bit of it. -/
theorem mul32IsTheHighHalf : Obligations.Mul32IsTheHighHalf := by
  intro a b
  have hlt : a.toNat * b.toNat < 2 ^ 32 * 2 ^ 32 := Nat.mul_lt_mul'' a.isLt b.isLt
  have hnat : (mul32 a b).toNat = a.toNat * b.toNat / 2 ^ 32 := by
    rw [mul32, Nat.shiftRight_eq_div_pow, BitVec.toNat_ofNat, Nat.mod_eq_of_lt (Nat.div_lt_of_lt_mul (n := 2 ^ 32) hlt)]
  refine ⟨hnat, BitVec.eq_of_toNat_eq ?_⟩
  rw [hnat, BitVec.extractLsb_toNat, BitVec.toNat_mul, BitVec.toNat_setWidth_of_le (by decide),
    BitVec.toNat_setWidth_of_le (by decide), Nat.mod_eq_of_lt (b := 2 ^ 64) hlt, Nat.shiftRight_eq_div_pow]
  exact (Nat.mod_eq_of_lt (Nat.div_lt_of_lt_mul (n := 2 ^ 32) hlt)).symm

end Sys2Proof.Rule

/-! SUPPORT. Rounding an exact value, on magnitude patterns: where the value lies between two neighbouring patterns
(R88 to R90). -/

namespace Sys2Proof.Machine

/-- The magnitude of an exact value in units of its quantum. -/
def quanta (F : Fmt) (v : Exact) : ℚ := (v.M : ℚ) * 2 ^ (-roundShift F v.M v.k)

/-- The step of an exact value's quantum, counted from the subnormals'. -/
def roundIndex (F : Fmt) (v : Exact) : Nat := (roundExp F v.M v.k + F.bias - 1).toNat

/-- The pattern of an exact value's magnitude rounded toward zero, exponents unbounded. -/
def floorPattern (F : Fmt) (v : Exact) : Nat :=
  roundIndex F v * 2 ^ F.p + roundDown v.M (roundShift F v.M v.k)

/-- The pattern of an exact value's magnitude rounded to nearest, exponents unbounded. -/
def nearPattern (F : Fmt) (v : Exact) : Nat :=
  roundIndex F v * 2 ^ F.p + roundNearest v.M (roundShift F v.M v.k)

/-- Scaling by a power of two that is not negative is exact. -/
theorem shiftLeft_toNat_cast (M : Nat) {sh : Int} (h : sh ≤ 0) :
    ((M <<< (-sh).toNat : Nat) : ℚ) = (M : ℚ) * 2 ^ (-sh) := by
  rw [Nat.shiftLeft_eq, Nat.cast_mul, Nat.cast_pow, Nat.cast_ofNat, ← zpow_natCast, Int.toNat_of_nonneg (by omega)]

/-- A positive shift divides. -/
theorem mul_zpow_neg_eq_div (M : Nat) {sh : Int} (h : 0 < sh) :
    (M : ℚ) * 2 ^ (-sh) = (M : ℚ) / (2 ^ sh.toNat : Nat) := by
  rw [zpow_neg, ← div_eq_mul_inv, Nat.cast_pow, Nat.cast_ofNat, ← zpow_natCast, Int.toNat_of_nonneg h.le]

theorem roundDown_eq_floor (M : Nat) (sh : Int) : roundDown M sh = ⌊(M : ℚ) * 2 ^ (-sh)⌋₊ := by
  rw [roundDown]
  split_ifs with h
  · rw [← shiftLeft_toNat_cast M h, Nat.floor_natCast]
  · rw [mul_zpow_neg_eq_div M (by omega), Nat.floor_div_natCast, Nat.floor_natCast, Nat.shiftRight_eq_div_pow]

/-- No bit is dropped exactly when the magnitude is a whole number of quanta. -/
theorem roundDown_cast_eq_iff (M : Nat) (sh : Int) :
    (roundDown M sh : ℚ) = (M : ℚ) * 2 ^ (-sh) ↔ sh ≤ 0 ∨ M % 2 ^ sh.toNat = 0 := by
  rw [roundDown]
  split_ifs with h
  · simp [h, shiftLeft_toNat_cast M h]
  · have hpos : (0 : ℚ) < (2 ^ sh.toNat : Nat) := by positivity
    rw [mul_zpow_neg_eq_div M (by omega), eq_div_iff hpos.ne', ← Nat.cast_mul, Nat.cast_inj,
      Nat.shiftRight_eq_div_pow]
    have := Nat.div_add_mod' M (2 ^ sh.toNat)
    omega

/-- How far a quotient by a power of two lies from the half above its floor. -/
theorem div_two_pow_sub_half (M n : Nat) :
    (M : ℚ) / (2 ^ (n + 1) : Nat) - ((M / 2 ^ (n + 1) : Nat) + 1 / 2) =
      ((M % 2 ^ (n + 1) : Nat) - (2 ^ n : Nat)) / (2 ^ (n + 1) : Nat) := by
  have hdiv : ((M / 2 ^ (n + 1) : Nat) : ℚ) * (2 ^ (n + 1) : Nat) + (M % 2 ^ (n + 1) : Nat) = M := by
    exact_mod_cast Nat.div_add_mod' M (2 ^ (n + 1))
  have hhalf : ((2 ^ (n + 1) : Nat) : ℚ) = 2 * (2 ^ n : Nat) := by
    rw [Nat.pow_succ']
    push_cast
    rfl
  have hpos : ((2 ^ (n + 1) : Nat) : ℚ) ≠ 0 := by positivity
  rw [eq_div_iff hpos, sub_mul, div_mul_cancel₀ _ hpos]
  linear_combination (-1 / 2 : ℚ) * hhalf - hdiv

/-- Rounding to nearest stays down exactly below the half, and at the half on an even significand (R89). -/
theorem roundNearest_eq_ite (M : Nat) (sh : Int) :
    roundNearest M sh =
      if (M : ℚ) * 2 ^ (-sh) < roundDown M sh + 1 / 2 ∨
          ((M : ℚ) * 2 ^ (-sh) = roundDown M sh + 1 / 2 ∧ roundDown M sh % 2 = 0)
      then roundDown M sh else roundDown M sh + 1 := by
  rcases le_or_gt sh 0 with h | h
  · have hexact := (roundDown_cast_eq_iff M sh).mpr (.inl h)
    rw [if_pos (.inl (by rw [← hexact]; linarith)), roundNearest_eq_roundDown (.inl h)]
  · obtain ⟨n, hn⟩ : ∃ n, sh.toNat = n + 1 := ⟨sh.toNat - 1, by omega⟩
    have hpos : (0 : ℚ) < (2 ^ (n + 1) : Nat) := by positivity
    have hlt : (M : ℚ) / (2 ^ (n + 1) : Nat) < (M / 2 ^ (n + 1) : Nat) + 1 / 2 ↔ M % 2 ^ (n + 1) < 2 ^ n := by
      rw [← sub_neg, div_two_pow_sub_half, div_lt_iff₀ hpos, zero_mul, sub_neg, Nat.cast_lt]
    have heq : (M : ℚ) / (2 ^ (n + 1) : Nat) = (M / 2 ^ (n + 1) : Nat) + 1 / 2 ↔ M % 2 ^ (n + 1) = 2 ^ n := by
      rw [← sub_eq_zero, div_two_pow_sub_half, div_eq_zero_iff, or_iff_left hpos.ne', sub_eq_zero, Nat.cast_inj]
    have hdown : roundDown M sh = M / 2 ^ (n + 1) := by
      rw [roundDown, if_neg (by omega), hn, Nat.shiftRight_eq_div_pow]
    simp only [roundNearest, if_neg (not_le.mpr h), mul_zpow_neg_eq_div M h, hdown, hn, hlt, heq,
      Nat.shiftRight_eq_div_pow, Nat.add_sub_cancel]
    split_ifs <;> omega

theorem quanta_mul_quantum (F : Fmt) (v : Exact) :
    quanta F v * 2 ^ (roundExp F v.M v.k - F.p) = |v.toRat| := by
  rw [quanta, abs_toRat, mul_assoc, ← zpow_add₀ two_ne_zero, roundShift]
  congr 2
  ring

theorem one_sub_bias_le_roundExp (F : Fmt) (M : Nat) (k : Int) : 1 - (F.bias : Int) ≤ roundExp F M k := by
  rw [roundExp]
  split_ifs <;> omega

theorem roundExp_eq_roundIndex (F : Fmt) (v : Exact) :
    roundExp F v.M v.k = (roundIndex F v : Int) + 1 - F.bias := by
  have := one_sub_bias_le_roundExp F v.M v.k
  rw [roundIndex, Int.toNat_of_nonneg (by omega)]
  ring

/-- The upper bound of a value's binade: `M * 2^k < 2^(ex+1)` (R89). -/
theorem abs_toRat_lt_two_zpow_binade {v : Exact} (h : v.M ≠ 0) : |v.toRat| < (2 : ℚ) ^ (binade v.M v.k + 1) := by
  have hlt : (v.M : ℚ) < 2 ^ bitLength v.M := by exact_mod_cast (bitLength_bounds v.M h).2
  rw [abs_toRat, show binade v.M v.k + 1 = bitLength v.M + v.k by rw [binade]; ring, zpow_add₀ two_ne_zero,
    zpow_natCast]
  exact mul_lt_mul_of_pos_right hlt (by positivity)

theorem quanta_lt (F : Fmt) {v : Exact} (h : v.M ≠ 0) : quanta F v < 2 * 2 ^ F.p := by
  have hle : binade v.M v.k + 1 ≤ roundExp F v.M v.k + 1 := by
    rw [roundExp]
    split_ifs <;> omega
  have hlt := (abs_toRat_lt_two_zpow_binade h).trans_le (zpow_le_zpow_right₀ one_le_two hle)
  rw [← quanta_mul_quantum F, show roundExp F v.M v.k + 1 = ((F.p + 1 : Nat) : Int) + (roundExp F v.M v.k - F.p) by
    push_cast; ring, zpow_add₀ two_ne_zero, zpow_natCast, pow_succ'] at hlt
  exact lt_of_mul_lt_mul_right hlt (by positivity)

/-- Above the subnormals' quantum a value has a full significand. -/
theorem le_quanta (F : Fmt) {v : Exact} (h : v.M ≠ 0) (hidx : roundIndex F v ≠ 0) : 2 ^ F.p ≤ quanta F v := by
  have heq : roundExp F v.M v.k = binade v.M v.k := by
    rw [roundIndex, roundExp] at hidx
    rw [roundExp]
    split_ifs at hidx ⊢ <;> omega
  have hle := two_zpow_binade_le_abs_toRat h
  rw [← quanta_mul_quantum F, ← heq, show roundExp F v.M v.k = (F.p : Int) + (roundExp F v.M v.k - F.p) by ring,
    zpow_add₀ two_ne_zero, zpow_natCast, add_sub_cancel] at hle
  exact le_of_mul_le_mul_right hle (by positivity)

/-- The significand rounded down is the whole number of quanta. -/
theorem roundDown_le_quanta (F : Fmt) (v : Exact) : (roundDown v.M (roundShift F v.M v.k) : ℚ) ≤ quanta F v := by
  rw [roundDown_eq_floor]
  exact Nat.floor_le (by positivity)

theorem quanta_lt_roundDown_succ (F : Fmt) (v : Exact) :
    quanta F v < (roundDown v.M (roundShift F v.M v.k) : ℚ) + 1 := by
  rw [roundDown_eq_floor]
  exact Nat.lt_floor_add_one _

theorem roundDown_lt (F : Fmt) {v : Exact} (h : v.M ≠ 0) : roundDown v.M (roundShift F v.M v.k) < 2 * 2 ^ F.p := by
  exact_mod_cast (roundDown_le_quanta F v).trans_lt (quanta_lt F h)

theorem roundIndex_eq_zero_or_le_roundDown (F : Fmt) {v : Exact} (h : v.M ≠ 0) :
    roundIndex F v = 0 ∨ 2 ^ F.p ≤ roundDown v.M (roundShift F v.M v.k) := by
  refine or_iff_not_imp_left.mpr fun hidx => Nat.le_of_lt_succ ?_
  exact_mod_cast (le_quanta F h hidx).trans_lt (quanta_lt_roundDown_succ F v)

theorem magValue_floorPattern (F : Fmt) {v : Exact} (h : v.M ≠ 0) :
    magValue F (floorPattern F v) =
      (roundDown v.M (roundShift F v.M v.k) : ℚ) * 2 ^ (roundExp F v.M v.k - F.p) := by
  rw [floorPattern, magValue_pattern F (roundIndex_eq_zero_or_le_roundDown F h) (roundDown_lt F h).le,
    roundExp_eq_roundIndex]

theorem magValue_floorPattern_succ (F : Fmt) {v : Exact} (h : v.M ≠ 0) :
    magValue F (floorPattern F v + 1) =
      ((roundDown v.M (roundShift F v.M v.k) : ℚ) + 1) * 2 ^ (roundExp F v.M v.k - F.p) := by
  rw [floorPattern, Nat.add_assoc, magValue_pattern F
    ((roundIndex_eq_zero_or_le_roundDown F h).imp_right Nat.le_succ_of_le) (roundDown_lt F h), roundExp_eq_roundIndex,
    Nat.cast_succ]

/-- RD of R90, exponents unbounded: no pattern above it is within the magnitude. -/
theorem magValue_floorPattern_le (F : Fmt) {v : Exact} (h : v.M ≠ 0) :
    magValue F (floorPattern F v) ≤ |v.toRat| := by
  rw [magValue_floorPattern F h, ← quanta_mul_quantum F]
  exact mul_le_mul_of_nonneg_right (roundDown_le_quanta F v) (by positivity)

theorem lt_magValue_floorPattern_succ (F : Fmt) {v : Exact} (h : v.M ≠ 0) :
    |v.toRat| < magValue F (floorPattern F v + 1) := by
  rw [magValue_floorPattern_succ F h, ← quanta_mul_quantum F]
  exact mul_lt_mul_of_pos_right (quanta_lt_roundDown_succ F v) (by positivity)

/-- A pattern is at most the magnitude exactly when it is at most the floor pattern. -/
theorem magValue_le_abs_toRat_iff (F : Fmt) {v : Exact} (h : v.M ≠ 0) (n : Nat) :
    magValue F n ≤ |v.toRat| ↔ n ≤ floorPattern F v := by
  constructor
  · intro hle
    exact Nat.le_of_lt_succ ((magValue_strictMono F).lt_iff_lt.mp (hle.trans_lt (lt_magValue_floorPattern_succ F h)))
  · intro hle
    exact ((magValue_strictMono F).monotone hle).trans (magValue_floorPattern_le F h)

/-- The halfway point between the magnitude pattern n and the next. -/
def midpoint (F : Fmt) (n : Nat) : ℚ := (magValue F n + magValue F (n + 1)) / 2

theorem midpoint_floorPattern (F : Fmt) {v : Exact} (h : v.M ≠ 0) :
    midpoint F (floorPattern F v) =
      ((roundDown v.M (roundShift F v.M v.k) : ℚ) + 1 / 2) * 2 ^ (roundExp F v.M v.k - F.p) := by
  rw [midpoint, magValue_floorPattern F h, magValue_floorPattern_succ F h]
  ring

theorem lt_midpoint (F : Fmt) (n : Nat) : magValue F n < midpoint F n := by
  rw [midpoint]
  linarith [magValue_strictMono F (Nat.lt_add_one n)]

theorem midpoint_lt (F : Fmt) (n : Nat) : midpoint F n < magValue F (n + 1) := by
  rw [midpoint]
  linarith [magValue_strictMono F (Nat.lt_add_one n)]

/-- The larger of two numbers is the nearer one from halfway on. -/
theorem upper_nearer_iff {a b q : ℚ} (h : a < b) : |q - b| ≤ |q - a| ↔ (a + b) / 2 ≤ q := by
  rw [← sq_le_sq]
  constructor <;> intro _ <;> nlinarith

/-- The smaller of two numbers is the nearer one up to halfway. -/
theorem lower_nearer_iff {a b q : ℚ} (h : a < b) : |q - a| ≤ |q - b| ↔ q ≤ (a + b) / 2 := by
  rw [← sq_le_sq]
  constructor <;> intro _ <;> nlinarith

/-- Two numbers are equally near only halfway. -/
theorem equally_near_iff {a b q : ℚ} (h : a ≠ b) : |q - a| = |q - b| ↔ q = (a + b) / 2 := by
  rw [← sq_eq_sq_iff_abs_eq_abs]
  constructor
  · intro heq
    apply mul_left_cancel₀ (sub_ne_zero.mpr h)
    linarith
  · rintro rfl
    ring

section
variable {F : Fmt} {w : Nat} (hF : LaneFormat F w)
include hF

theorem floorPattern_mod_two (v : Exact) : floorPattern F v % 2 = roundDown v.M (roundShift F v.M v.k) % 2 := by
  obtain ⟨m, hm⟩ := Nat.exists_eq_succ_of_ne_zero hF.p_pos.ne'
  rw [floorPattern, hm, Nat.pow_succ, ← Nat.mul_assoc, Nat.mul_add_mod_self_right]

/-- Rounding to nearest stays at the floor pattern exactly below the halfway point, and at it when even (R89). -/
theorem nearPattern_eq_ite {v : Exact} (h : v.M ≠ 0) :
    nearPattern F v = if |v.toRat| < midpoint F (floorPattern F v) ∨
        (|v.toRat| = midpoint F (floorPattern F v) ∧ floorPattern F v % 2 = 0)
      then floorPattern F v else floorPattern F v + 1 := by
  have hpos : (0 : ℚ) < 2 ^ (roundExp F v.M v.k - F.p) := by positivity
  simp only [midpoint_floorPattern F h, ← quanta_mul_quantum F, mul_lt_mul_iff_left₀ hpos, mul_left_inj' hpos.ne',
    floorPattern_mod_two hF]
  rw [nearPattern, roundNearest_eq_ite, ← quanta, floorPattern]
  split_ifs <;> rfl

/-- Rounding to nearest, by halfway points: the result is at most n exactly when the magnitude is below the halfway
point above n, or on it with n even (R89). -/
theorem nearPattern_le_iff {v : Exact} (h : v.M ≠ 0) (n : Nat) :
    nearPattern F v ≤ n ↔ |v.toRat| < midpoint F n ∨ (|v.toRat| = midpoint F n ∧ n % 2 = 0) := by
  have hmono := (magValue_strictMono F).monotone
  rcases lt_trichotomy n (floorPattern F v) with hn | rfl | hn
  · have hmid : midpoint F n < |v.toRat| :=
      (midpoint_lt F n).trans_le ((hmono hn).trans (magValue_floorPattern_le F h))
    have hle : floorPattern F v ≤ nearPattern F v := by
      rw [nearPattern_eq_ite hF h]
      split_ifs <;> omega
    simp only [hmid.not_gt, hmid.ne', false_and, or_false, iff_false]
    omega
  · rw [nearPattern_eq_ite hF h]
    split_ifs with hdown <;> simp [hdown]
  · have hmid : |v.toRat| < midpoint F n :=
      (lt_magValue_floorPattern_succ F h).trans ((hmono hn).trans_lt (lt_midpoint F n))
    have hle : nearPattern F v ≤ floorPattern F v + 1 := by
      rw [nearPattern_eq_ite hF h]
      split_ifs <;> omega
    simp only [hmid, true_or, iff_true]
    omega

/-- Rounding to nearest gives the nearest pattern, and an even one when another is as near (R89). -/
theorem nearPattern_nearest {v : Exact} (h : v.M ≠ 0) (m : Nat) :
    |(|v.toRat| - magValue F (nearPattern F v))| ≤ |(|v.toRat| - magValue F m)| ∧
    (|(|v.toRat| - magValue F (nearPattern F v))| = |(|v.toRat| - magValue F m)| → m ≠ nearPattern F v →
      nearPattern F v % 2 = 0) := by
  have hmono := magValue_strictMono F
  generalize hr : nearPattern F v = r
  rcases lt_trichotomy m r with hm | rfl | hm
  · obtain ⟨n, rfl⟩ := Nat.exists_eq_succ_of_ne_zero (Nat.ne_zero_of_lt hm)
    have hmn := hmono.monotone (Nat.le_of_lt_succ hm)
    have hup := mt (nearPattern_le_iff hF h n).mpr (by omega)
    simp only [midpoint, not_or, not_lt, not_and] at hup
    refine ⟨(upper_nearer_iff (hmono hm)).mpr (by linarith), fun heq _ => ?_⟩
    have hmid := (equally_near_iff (hmono hm).ne).mp heq.symm
    have := hup.2 (by linarith)
    omega
  · exact ⟨le_rfl, fun _ hne => absurd rfl hne⟩
  · have hrm := hmono.monotone (Nat.succ_le_of_lt hm)
    have hdown := (nearPattern_le_iff hF h r).mp hr.le
    rw [midpoint] at hdown
    rcases hdown with hlt | ⟨heq, heven⟩
    · exact ⟨(lower_nearer_iff (hmono hm)).mpr (by linarith), fun heq _ =>
        absurd ((equally_near_iff (hmono hm).ne).mp heq) (by linarith)⟩
    · exact ⟨(lower_nearer_iff (hmono hm)).mpr (by linarith), fun _ _ => heven⟩

end

end Sys2Proof.Machine

/-! SUPPORT. The model's roundings as magnitude patterns, cut off at MAX or at the infinity (R89, R90). -/

namespace Sys2Proof.Machine

theorem roundNearest_le (F : Fmt) {v : Exact} (h : v.M ≠ 0) :
    roundNearest v.M (roundShift F v.M v.k) ≤ 2 * 2 ^ F.p := by
  have := roundDown_lt F h
  rw [roundNearest_eq_ite]
  split_ifs <;> omega

theorem roundIndex_eq_zero_or_le_roundNearest (F : Fmt) {v : Exact} (h : v.M ≠ 0) :
    roundIndex F v = 0 ∨ 2 ^ F.p ≤ roundNearest v.M (roundShift F v.M v.k) := by
  refine (roundIndex_eq_zero_or_le_roundDown F h).imp_right fun hle => hle.trans ?_
  rw [roundNearest_eq_ite]
  split_ifs <;> omega

/-- The exact value of a finite nonzero magnitude pattern has that pattern for its floor. -/
theorem floorPattern_eq_of_magValue (F : Fmt) {v : Exact} (h : v.M ≠ 0) {n : Nat} (hn : magValue F n = |v.toRat|) :
    floorPattern F v = n := by
  have hlow := (magValue_le_abs_toRat_iff F h n).mp hn.le
  have hhigh := (magValue_floorPattern_le F h).trans hn.ge
  exact le_antisymm ((magValue_strictMono F).le_iff_le.mp hhigh) hlow

theorem toRat_eq_sign_mul_abs (v : Exact) : v.toRat = (if v.s then -1 else 1) * |v.toRat| := by
  rw [abs_toRat, Exact.toRat, mul_assoc]

theorem toRat_ne_zero {v : Exact} (h : v.M ≠ 0) : v.toRat ≠ 0 := by
  rw [← abs_pos, abs_toRat]
  have : 0 < v.M := Nat.pos_of_ne_zero h
  positivity

theorem faithful_of_representable (F : Fmt) (w : Nat) {v : Exact} (hr : representable F v = true) :
    faithful F w v = [rne F w v, rne F w v] := by
  rw [faithful, faithfulUp, if_pos hr, rne_eq_faithfulDown F w hr]

theorem faithfulUp_of_not_representable (F : Fmt) {v : Exact} (hr : representable F v = false) :
    faithfulUp F v = faithfulDown F v + 1 := by
  rw [faithfulUp, if_neg (by simp [hr])]

section
variable {F : Fmt} {w : Nat} (hF : LaneFormat F w)
include hF

theorem sign_withSign_of_le {s : Bool} {mag : Nat} (h : mag ≤ infPattern F) :
    sign (withSign s mag : BitVec w) = s :=
  sign_withSign (Nat.zero_lt_of_lt hF.one_lt) s (h.trans_lt hF.infPattern_lt)

theorem magnitude_withSign_of_le {s : Bool} {mag : Nat} (h : mag ≤ infPattern F) :
    (magnitude (withSign s mag : BitVec w)).toNat = mag :=
  magnitude_withSign_toNat (Nat.zero_lt_of_lt hF.one_lt) s (h.trans_lt hF.infPattern_lt)

/-- The last lines of R89: the pattern of a significand in its binade, or the infinity when that is beyond MAX. -/
theorem assemble_eq_min {E q : Nat} (hE : E = 0 ∨ 2 ^ F.p ≤ q) (hq : q ≤ 2 * 2 ^ F.p) :
    assemble F q ((E : Int) + 1 - F.bias) = min (E * 2 ^ F.p + q) (infPattern F) := by
  have hpos := Nat.two_pow_pos F.p
  have hbias := hF.bias_pos
  rw [assemble, Nat.pow_succ', ← infPattern]
  rcases hq.lt_or_eq with hlt | rfl
  · have hfin := hF.pattern_lt_infPattern_iff hlt hE
    simp only [hlt.ne, if_false]
    split_ifs with hover hsub
    · omega
    · obtain rfl : E = 0 := hE.resolve_right (by omega)
      omega
    · have hexp : ((E : Int) + 1 - F.bias + F.bias).toNat = E + 1 := by omega
      rw [hexp, Nat.add_one_mul E, min_eq_left (hfin.mpr (by omega)).le]
      omega
  · have hcarry : E * 2 ^ F.p + 2 * 2 ^ F.p = (E + 1) * 2 ^ F.p + 2 ^ F.p := by
      rw [Nat.add_one_mul E]
      omega
    have hfin := hF.pattern_lt_infPattern_iff (E := E + 1) (q := 2 ^ F.p) (by omega) (.inr le_rfl)
    simp only [if_true, hcarry]
    split_ifs with hover hsub
    · omega
    · omega
    · have hexp : ((E : Int) + 1 - F.bias + 1 + F.bias).toNat = E + 2 := by omega
      rw [hexp, min_eq_left (hfin.mpr (by omega)).le, Nat.succ_mul (E + 1)]
      omega

/-- RNE is the nearest pattern, or the infinity from its pattern on (R89). -/
theorem rne_eq_withSign_min {v : Exact} (h : v.M ≠ 0) :
    rne F w v = withSign v.s (min (nearPattern F v) (infPattern F)) := by
  rw [rne, roundExp_eq_roundIndex,
    assemble_eq_min hF (roundIndex_eq_zero_or_le_roundNearest F h) (roundNearest_le F h), nearPattern]

theorem roundExp_le_bias_iff {v : Exact} (h : v.M ≠ 0) :
    roundExp F v.M v.k ≤ F.bias ↔ floorPattern F v < infPattern F := by
  rw [floorPattern, hF.pattern_lt_infPattern_iff (roundDown_lt F h) (roundIndex_eq_zero_or_le_roundDown F h),
    roundExp_eq_roundIndex]
  omega

/-- RD is the floor pattern, or MAX beyond it (R90). -/
theorem faithfulDown_eq_min {v : Exact} (h : v.M ≠ 0) :
    faithfulDown F v = min (floorPattern F v) (infPattern F - 1) := by
  rw [faithfulDown]
  split_ifs with hover
  · have := mt (roundExp_le_bias_iff hF h).mpr (not_le.mpr hover)
    rw [← infPattern]
    omega
  · have := (roundExp_le_bias_iff hF h).mp (not_lt.mp hover)
    rw [roundExp_eq_roundIndex, assemble_eq_min hF (roundIndex_eq_zero_or_le_roundDown F h) (roundDown_lt F h).le,
      ← floorPattern]
    omega

/-- A value is representable exactly when it is a finite pattern's (R90). -/
theorem representable_iff {v : Exact} (h : v.M ≠ 0) :
    representable F v = true ↔ floorPattern F v < infPattern F ∧ magValue F (floorPattern F v) = |v.toRat| := by
  have hpos : (0 : ℚ) < 2 ^ (roundExp F v.M v.k - F.p) := by positivity
  rw [representable, Bool.and_eq_true, decide_eq_true_eq, Bool.or_eq_true, decide_eq_true_eq, beq_iff_eq,
    ← roundDown_cast_eq_iff, roundExp_le_bias_iff hF h, magValue_floorPattern F h, ← quanta_mul_quantum F,
    mul_left_inj' hpos.ne', quanta]

theorem faithfulDown_of_representable {v : Exact} (h : v.M ≠ 0) (hr : representable F v = true) :
    faithfulDown F v = floorPattern F v := by
  have := ((representable_iff hF h).mp hr).1
  rw [faithfulDown_eq_min hF h]
  omega

theorem faithfulDown_lt {v : Exact} (h : v.M ≠ 0) : faithfulDown F v < infPattern F := by
  have := hF.infPattern_pos
  rw [faithfulDown_eq_min hF h]
  omega

theorem faithfulUp_le {v : Exact} (h : v.M ≠ 0) : faithfulUp F v ≤ infPattern F := by
  have := faithfulDown_lt hF h
  rw [faithfulUp]
  split_ifs <;> omega

/-- A value is representable exactly when it is the value of some finite lane (R90). -/
theorem representable_iff_exists_value {v : Exact} (h : v.M ≠ 0) :
    representable F v = true ↔ ∃ z : BitVec w, isFinite F z = true ∧ value F z = v.toRat := by
  rw [representable_iff hF h]
  constructor
  · rintro ⟨hlt, heq⟩
    refine ⟨withSign v.s (floorPattern F v), ?_, ?_⟩
    · rwa [isFinite_iff_lt hF, magnitude_withSign_of_le hF hlt.le]
    · rw [value_eq_magValue hF, sign_withSign_of_le hF hlt.le, magnitude_withSign_of_le hF hlt.le, heq,
        ← toRat_eq_sign_mul_abs]
  · rintro ⟨z, hfin, hz⟩
    have hmag : magValue F (magnitude z).toNat = |v.toRat| := by rw [← abs_value hF, hz]
    rw [floorPattern_eq_of_magValue F h hmag]
    exact ⟨(isFinite_iff_lt hF z).mp hfin, hmag⟩

/-- RNE is one of the two members of the faithful set (R90). -/
theorem rne_mem_faithful {v : Exact} (h : v.M ≠ 0) : rne F w v ∈ faithful F w v := by
  cases hr : representable F v with
  | true => simp [faithful_of_representable F w hr]
  | false =>
    have hpos := hF.infPattern_pos
    have hnear : nearPattern F v = floorPattern F v ∨ nearPattern F v = floorPattern F v + 1 := by
      rw [nearPattern_eq_ite hF h]
      split_ifs <;> simp
    have hmember : min (nearPattern F v) (infPattern F) = faithfulDown F v ∨
        min (nearPattern F v) (infPattern F) = faithfulUp F v := by
      rw [faithfulUp_of_not_representable F hr, faithfulDown_eq_min hF h]
      omega
    rw [faithful, List.mem_pair, rne_eq_withSign_min hF h]
    exact hmember.imp (congrArg _) (congrArg _)

theorem decodeLane_M_ne_zero {x : BitVec w} (h0 : isZero x = false) : (decodeLane F x).M ≠ 0 := by
  intro hM
  have hmag : magValue F (magnitude x).toNat = 0 := by
    rw [← abs_value hF, value, abs_toRat, hM, Nat.cast_zero, zero_mul]
  have hzero := (magValue_strictMono F).injective (hmag.trans (magValue_zero F).symm)
  have : isZero x = true := (isZero_iff x).mpr (BitVec.eq_of_toNat_eq (by simpa using hzero))
  simp [h0] at this

/-- A finite nonzero lane has a representable exact value, and RNE of it is the lane (R88, R89). -/
theorem rne_decodeLane {x : BitVec w} (hfin : isFinite F x = true) (h0 : isZero x = false) :
    rne F w (decodeLane F x) = x ∧ representable F (decodeLane F x) = true := by
  have hM := decodeLane_M_ne_zero hF h0
  have hr := (representable_iff_exists_value hF hM).mpr ⟨x, hfin, rfl⟩
  have hsign : (decodeLane F x).s = sign x := by
    rw [decodeLane]
    split_ifs <;> rfl
  have hmag : magValue F (magnitude x).toNat = |(decodeLane F x).toRat| := (abs_value hF x).symm
  refine ⟨?_, hr⟩
  rw [rne_eq_faithfulDown F w hr, faithfulDown_of_representable hF hM hr, floorPattern_eq_of_magValue F hM hmag, hsign,
    withSign_sign_magnitude hF]

theorem isInf_iff_toNat (x : BitVec w) : isInf F x = true ↔ (magnitude x).toNat = infPattern F := by
  rw [isInf_iff F hF.width, ← BitVec.toNat_inj, posInf_toNat F hF.width, infPattern]

/-- The lower member of the faithful set is RD (R90). -/
theorem isRD_faithfulDown {v : Exact} (h : v.M ≠ 0) :
    Rule.IsRD F |v.toRat| (withSign v.s (faithfulDown F v) : BitVec w) := by
  have hlt := faithfulDown_lt hF h
  have hmag := magnitude_withSign_of_le hF (s := v.s) hlt.le
  have hmono := magValue_strictMono F
  rw [Rule.IsRD, isFinite_iff_lt hF, abs_value hF, hmag]
  refine ⟨hlt, ?_, fun z hz hle => ?_⟩
  · rw [magValue_le_abs_toRat_iff F h, faithfulDown_eq_min hF h]
    exact min_le_left _ _
  · rw [abs_value hF, magValue_le_abs_toRat_iff F h] at hle
    rw [isFinite_iff_lt hF] at hz
    rw [abs_value hF, hmono.le_iff_le, faithfulDown_eq_min hF h]
    omega

/-- No finite pattern has the magnitude of a value that is not representable. -/
theorem magValue_lt_abs_toRat {v : Exact} (h : v.M ≠ 0) (hr : representable F v = false) {n : Nat}
    (hlt : n < infPattern F) (hle : n ≤ floorPattern F v) : magValue F n < |v.toRat| := by
  refine ((magValue_le_abs_toRat_iff F h n).mpr hle).lt_of_ne fun heq => ?_
  have hfloor := floorPattern_eq_of_magValue F h heq
  have := (representable_iff hF h).mpr ⟨hfloor.trans_lt hlt, hfloor.symm ▸ heq⟩
  simp [hr] at this

/-- The upper member of the faithful set is RU (R90). -/
theorem isRU_faithfulUp {v : Exact} (h : v.M ≠ 0) :
    Rule.IsRU F |v.toRat| (withSign v.s (faithfulUp F v) : BitVec w) := by
  have hmag := magnitude_withSign_of_le hF (s := v.s) (faithfulUp_le hF h)
  have hmono := magValue_strictMono F
  simp only [Rule.IsRU, isFinite_iff_lt hF, isInf_iff_toNat hF, abs_value hF, hmag]
  cases hr : representable F v with
  | true =>
    obtain ⟨hlt, heq⟩ := (representable_iff hF h).mp hr
    rw [faithfulUp, if_pos hr, faithfulDown_of_representable hF h hr, heq]
    exact .inl ⟨hlt, le_rfl, fun _ _ hz => hz⟩
  | false =>
    rw [faithfulUp_of_not_representable F hr, faithfulDown_eq_min hF h]
    rcases Nat.lt_or_ge (floorPattern F v + 1) (infPattern F) with hlt | hge
    · rw [min_eq_left (by omega)]
      refine .inl ⟨hlt, (lt_magValue_floorPattern_succ F h).le, fun z hz hle => hmono.monotone ?_⟩
      exact Nat.lt_of_not_le fun hz' => (magValue_lt_abs_toRat hF h hr hz hz').not_ge hle
    · have hpos := hF.infPattern_pos
      exact .inr ⟨by omega, fun z hz => magValue_lt_abs_toRat hF h hr hz (by omega)⟩

/-- The faithful set of R90: RD and RU, with the value's sign. -/
theorem faithful_neighbours {v : Exact} (h : v.M ≠ 0) :
    ∃ lo hi : BitVec w, faithful F w v = [lo, hi] ∧ sign lo = v.s ∧ sign hi = v.s ∧
      Rule.IsRD F |v.toRat| lo ∧ Rule.IsRU F |v.toRat| hi :=
  ⟨_, _, rfl, sign_withSign_of_le hF (faithfulDown_lt hF h).le, sign_withSign_of_le hF (faithfulUp_le hF h),
    isRD_faithfulDown hF h, isRU_faithfulUp hF h⟩

end

end Sys2Proof.Machine

/-! SUPPORT. RNE as the nearest finite value: where it overflows, and how far other lanes lie (R89). -/

namespace Sys2Proof.Machine

section
variable {F : Fmt} {w : Nat} (hF : LaneFormat F w)
include hF

/-- Half a unit above MAX (R89). -/
theorem midpoint_maxFinite :
    midpoint F (infPattern F - 1) = (2 * 2 ^ (F.p + 1) - 1 : ℚ) / 2 * (2 : ℚ) ^ ((F.bias : Int) - F.p) := by
  have hpos := Nat.two_pow_pos F.p
  have hbias := hF.bias_pos
  have hinf : infPattern F = (2 * F.bias - 1) * 2 ^ F.p + 2 * 2 ^ F.p := by
    rw [infPattern, hF.expOnes_eq, ← Nat.add_mul]
    congr 1
    omega
  have hmax : infPattern F - 1 = (2 * F.bias - 1) * 2 ^ F.p + (2 * 2 ^ F.p - 1) := by omega
  have hexp : ((2 * F.bias - 1 : Nat) : Int) + 1 - F.bias - F.p = F.bias - F.p := by omega
  rw [midpoint, Nat.sub_add_cancel hF.infPattern_pos, hmax, magValue_pattern F (.inr (by omega)) (by omega), hinf,
    magValue_pattern F (.inr (by omega)) le_rfl, hexp, Nat.cast_sub (by omega)]
  push_cast
  ring

theorem isFinite_rne_iff {v : Exact} (h : v.M ≠ 0) :
    isFinite F (rne F w v) = true ↔ nearPattern F v < infPattern F := by
  rw [rne_eq_withSign_min hF h, isFinite_iff_lt hF, magnitude_withSign_of_le hF (min_le_right _ _)]
  omega

/-- RNE is finite exactly below MAX plus half a unit (R89). -/
theorem isFinite_rne_iff_lt {v : Exact} (h : v.M ≠ 0) :
    isFinite F (rne F w v) = true ↔
      |v.toRat| < (2 * 2 ^ (F.p + 1) - 1 : ℚ) / 2 * (2 : ℚ) ^ ((F.bias : Int) - F.p) := by
  have hpos := hF.infPattern_pos
  have heven := hF.infPattern_even
  rw [isFinite_rne_iff hF h, ← Nat.le_sub_one_iff_lt hpos, nearPattern_le_iff hF h, midpoint_maxFinite hF,
    or_iff_left (by omega)]

theorem rne_eq_withSign_nearPattern {v : Exact} (h : v.M ≠ 0) (hfin : isFinite F (rne F w v) = true) :
    rne F w v = withSign v.s (nearPattern F v) := by
  rw [rne_eq_withSign_min hF h, min_eq_left ((isFinite_rne_iff hF h).mp hfin).le]

theorem rne_of_not_finite {v : Exact} (h : v.M ≠ 0) (hfin : isFinite F (rne F w v) = false) :
    rne F w v = if v.s then signMask w ||| posInf F w else posInf F w := by
  have := mt (isFinite_rne_iff hF h).mpr (by simp [hfin])
  rw [rne_eq_withSign_min hF h, min_eq_right (by omega), withSign_infPattern]

/-- A value and a lane of its sign are as far apart as their magnitudes. -/
theorem abs_toRat_sub_value_withSign (v : Exact) {n : Nat} (hn : n ≤ infPattern F) :
    |v.toRat - value F (withSign v.s n : BitVec w)| = |(|v.toRat| - magValue F n)| := by
  rw [value_eq_magValue hF, sign_withSign_of_le hF hn, magnitude_withSign_of_le hF hn]
  nth_rw 1 [toRat_eq_sign_mul_abs v]
  rw [← mul_sub, abs_mul]
  cases v.s <;> simp

/-- RNE is a nearest finite value, and its last mantissa bit is 0 on a tie (R89). -/
theorem rne_nearest {v : Exact} (h : v.M ≠ 0) (hfin : isFinite F (rne F w v) = true) (z : BitVec w) :
    |v.toRat - value F (rne F w v)| ≤ |v.toRat - value F z| ∧
      (|v.toRat - value F (rne F w v)| = |v.toRat - value F z| → value F z ≠ value F (rne F w v) →
        (rne F w v).getLsbD 0 = false) := by
  have hle := ((isFinite_rne_iff hF h).mp hfin).le
  have hrne := rne_eq_withSign_nearPattern hF h hfin
  have hdist := abs_toRat_sub_value_withSign hF v hle
  rw [← hrne] at hdist
  obtain ⟨hnear, heven⟩ := nearPattern_nearest hF h (magnitude z).toNat
  rw [← hdist] at hnear heven
  have htriangle := abs_abs_sub_abs_le v.toRat (value F z)
  rw [abs_value hF] at htriangle
  refine ⟨hnear.trans htriangle, fun heq hne => ?_⟩
  by_cases hmag : (magnitude z).toNat = nearPattern F v
  · have habs : |value F z| = |value F (rne F w v)| := by
      rw [abs_value hF, abs_value hF, hrne, magnitude_withSign_of_le hF hle, hmag]
    have hzero := (equally_near_iff hne.symm).mp heq
    rw [(abs_eq_abs.mp habs).resolve_left hne, add_neg_cancel, zero_div] at hzero
    exact absurd hzero (toRat_ne_zero h)
  · rw [hrne, withSign_getLsbD_zero hF.one_lt, heven (hnear.antisymm (htriangle.trans_eq heq.symm)) hmag]
    rfl

end

end Sys2Proof.Machine

/-! PROOF. Rounding an exact value (R88 to R90): RNE of a lane's own value (O53), its place in the faithful set (O54),
to nearest (O55), and RD and RU (O56). -/

namespace Sys2Proof.Rule

open Sys2Proof.Machine

/-- Settles O53: the floor pattern of a lane's value is the lane's magnitude, for each format. -/
theorem rneReturnsRepresentableValuesUnchanged : Obligations.RneReturnsRepresentableValuesUnchanged :=
  ⟨fun _ => rne_decodeLane laneFormat_binary32, fun _ => rne_decodeLane laneFormat_binary64⟩

/-- Settles O54: the nearest pattern is the floor pattern or the next one, for each format. -/
theorem rneIsAMemberOfTheFaithfulSet : Obligations.RneIsAMemberOfTheFaithfulSet :=
  ⟨fun _ h => ⟨rne_mem_faithful laneFormat_binary32 h, faithful_of_representable binary32 32,
      faithfulUp_of_not_representable binary32⟩,
    fun _ h => ⟨rne_mem_faithful laneFormat_binary64 h, faithful_of_representable binary64 64,
      faithfulUp_of_not_representable binary64⟩⟩

/-- Settles O55: RNE of a value is its nearest pattern with its sign, cut off at the infinity, for each format. -/
theorem rneIsNearestTiesToEven : Obligations.RneIsNearestTiesToEven :=
  ⟨fun _ h => ⟨isFinite_rne_iff_lt laneFormat_binary32 h, fun hfin z _ => rne_nearest laneFormat_binary32 h hfin z,
      rne_of_not_finite laneFormat_binary32 h⟩,
    fun _ h => ⟨isFinite_rne_iff_lt laneFormat_binary64 h, fun hfin z _ => rne_nearest laneFormat_binary64 h hfin z,
      rne_of_not_finite laneFormat_binary64 h⟩⟩

/-- Settles O56: the floor pattern cut off at MAX is RD, and the next one is RU unless the value is a pattern's own. -/
theorem faithfulSetIsTheTwoNeighbours : Obligations.FaithfulSetIsTheTwoNeighbours :=
  ⟨fun _ h => ⟨faithful_neighbours laneFormat_binary32 h, representable_iff_exists_value laneFormat_binary32 h⟩,
    fun _ h => ⟨faithful_neighbours laneFormat_binary64 h, representable_iff_exists_value laneFormat_binary64 h⟩⟩

end Sys2Proof.Rule

/-! SUPPORT. A unary operation answers with its lane function in every lane (R25, R27, R95), and the rules' pseudocode
with its literals is the model's lane function (R101 to R110). -/

namespace Sys2Proof.Rule

open Sys2Proof.Machine

/-- An operation that applies `op` to each lane answers as the rule asks when `op` does in one lane. -/
theorem unaryAnswers_of_exec {i : Instr} {w n : Nat} {admits : Config → BitVec w → BitVec w → Prop}
    (op : Config → BitVec w → BitVec w → BitVec w) (hexec : ∀ s, exec i s = answerUnary w n (op s.cfg) s)
    (hw : 0 < w) (hn : w * n ≤ 512) (hop : ∀ g d x, admits g x (op g d x)) : UnaryAnswers i w n admits := by
  intro s
  refine ⟨_, (hexec s).trans (answerUnary_next w n _ s), ?_, fun k hk => ?_, fun j hj => ?_, fun b c =>
    ⟨_, (hexec _).trans (answerUnary_next w n _ _), unaryResult_congr w n _ rfl rfl⟩⟩
  · simp [OnlyAnswers]
  · rw [State.answer_r, lane_unaryResult w n _ s k hn hk]
    exact hop _ _ _
  · exact packLanes_high w hw _ n j hn hj

/-- The same for a lane function that reads neither the configuration nor a draw. -/
theorem unaryAnswers_of_lane_eq {i : Instr} {w n : Nat} {f : BitVec w → BitVec w} (op : BitVec w → BitVec w)
    (hexec : ∀ s, exec i s = answerUnary w n (fun _ x => op x) s) (hw : 0 < w) (hn : w * n ≤ 512)
    (hop : ∀ x, op x = f x) : UnaryAnswers i w n (fun _ x y => y = f x) :=
  unaryAnswers_of_exec (fun _ _ x => op x) hexec hw hn fun _ _ x => hop x

theorem trunc_eq_truncF32 (x : BitVec 32) : trunc binary32 x = truncF32 x := trunc_eq binary32 x

theorem trunc_eq_truncF64 (x : BitVec 64) : trunc binary64 x = truncF64 x := trunc_eq binary64 x

theorem floor_eq_floorF32 (x : BitVec 32) : floor binary32 x = floorF32 x := floor_eq binary32 x

theorem floor_eq_floorF64 (x : BitVec 64) : floor binary64 x = floorF64 x := floor_eq binary64 x

theorem ceil_eq_ceilF32 (x : BitVec 32) : ceil binary32 x = ceilF32 x := ceil_eq binary32 x

theorem ceil_eq_ceilF64 (x : BitVec 64) : ceil binary64 x = ceilF64 x := ceil_eq binary64 x

end Sys2Proof.Rule

/-! PROOF. trunc, floor and ceil answer as their rules say (O30, O31, O34 to O37). -/

namespace Sys2Proof.Rule

open Sys2Proof.Machine

/-- Settles O30: each form applies trunc to its lanes, which is the rule's pseudocode. -/
theorem truncBinary32 : Obligations.TruncBinary32 := by
  refine ⟨rfl, rfl, rfl, ?_, ?_, ?_, by decide⟩
  all_goals exact unaryAnswers_of_lane_eq _ (fun _ => rfl) (by decide) (by decide) trunc_eq_truncF32

/-- Settles O31: each form applies trunc to its lanes, which is the rule's pseudocode. -/
theorem truncBinary64 : Obligations.TruncBinary64 := by
  refine ⟨rfl, rfl, rfl, ?_, ?_, ?_, by decide⟩
  all_goals exact unaryAnswers_of_lane_eq _ (fun _ => rfl) (by decide) (by decide) trunc_eq_truncF64

/-- Settles O34: each form applies floor to its lanes, which is the rule's pseudocode. -/
theorem floorBinary32 : Obligations.FloorBinary32 := by
  refine ⟨rfl, rfl, rfl, ?_, ?_, ?_, by decide⟩
  all_goals exact unaryAnswers_of_lane_eq _ (fun _ => rfl) (by decide) (by decide) floor_eq_floorF32

/-- Settles O35: each form applies floor to its lanes, which is the rule's pseudocode. -/
theorem floorBinary64 : Obligations.FloorBinary64 := by
  refine ⟨rfl, rfl, rfl, ?_, ?_, ?_, by decide⟩
  all_goals exact unaryAnswers_of_lane_eq _ (fun _ => rfl) (by decide) (by decide) floor_eq_floorF64

/-- Settles O36: each form applies ceil to its lanes, which is the rule's pseudocode. -/
theorem ceilBinary32 : Obligations.CeilBinary32 := by
  refine ⟨rfl, rfl, rfl, ?_, ?_, ?_, by decide⟩
  all_goals exact unaryAnswers_of_lane_eq _ (fun _ => rfl) (by decide) (by decide) ceil_eq_ceilF32

/-- Settles O37: each form applies ceil to its lanes, which is the rule's pseudocode. -/
theorem ceilBinary64 : Obligations.CeilBinary64 := by
  refine ⟨rfl, rfl, rfl, ?_, ?_, ?_, by decide⟩
  all_goals exact unaryAnswers_of_lane_eq _ (fun _ => rfl) (by decide) (by decide) ceil_eq_ceilF64

end Sys2Proof.Rule

/-! SUPPORT. The exponent regions by the biased exponent, and the fractional bits (R100). -/

namespace Sys2Proof.Machine

/-- What the rounding rules need of a format beyond LaneFormat: 2^p is finite and 2^-p is normal (R103, R111). -/
structure RoundingFormat (F : Fmt) (w : Nat) : Prop extends LaneFormat F w where
  p_lt_bias : F.p < F.bias

theorem roundingFormat_binary32 : RoundingFormat binary32 32 := ⟨laneFormat_binary32, by decide⟩

theorem roundingFormat_binary64 : RoundingFormat binary64 64 := ⟨laneFormat_binary64, by decide⟩

section
variable (F : Fmt) {w : Nat} (x : BitVec w)

theorem region_eq_huge_iff : region F x = .huge ↔ F.bias + F.p ≤ expField F x := by
  rw [region, unbiasedExp]
  split_ifs <;> simp <;> omega

theorem region_eq_small_iff : region F x = .small ↔ expField F x < F.bias := by
  rw [region, unbiasedExp]
  split_ifs <;> simp <;> omega

theorem region_eq_middle_iff : region F x = .middle ↔ F.bias ≤ expField F x ∧ expField F x < F.bias + F.p := by
  rw [region, unbiasedExp]
  split_ifs <;> simp <;> omega

theorem fracBits_eq : fracBits F x = F.bias + F.p - expField F x := by
  rw [fracBits, unbiasedExp]
  omega

theorem fracBits_add_expField {F : Fmt} {x : BitVec w} (h : region F x = .middle) :
    fracBits F x + expField F x = F.bias + F.p := by
  have := (region_eq_middle_iff F x).mp h
  rw [fracBits_eq]
  omega

theorem fracBits_pos {F : Fmt} {x : BitVec w} (h : region F x = .middle) : 0 < fracBits F x := by
  have := (region_eq_middle_iff F x).mp h
  rw [fracBits_eq]
  omega

theorem fracBits_le {F : Fmt} {x : BitVec w} (h : region F x = .middle) : fracBits F x ≤ F.p := by
  have := (region_eq_middle_iff F x).mp h
  rw [fracBits_eq]
  omega

end

end Sys2Proof.Machine

/-! PROOF. The exponent regions (O29). -/

namespace Sys2Proof.Rule

open Sys2Proof.Machine

/-- Settles O29, for each format by the region's conditions on the biased exponent. -/
theorem exponentRegions : Obligations.ExponentRegions := by
  refine ⟨fun x => ⟨region_eq_huge_iff binary32 x, ?_, ?_, fun h => ?_⟩,
    fun x => ⟨region_eq_huge_iff binary64 x, ?_, ?_, fun h => ?_⟩⟩
  case refine_1 | refine_4 => exact (region_eq_middle_iff _ x).trans (and_congr_right' Nat.lt_succ_iff)
  case refine_2 | refine_5 => exact (region_eq_small_iff _ x).trans Nat.lt_succ_iff
  all_goals
    exact ⟨fracBits_eq _ x, fracBits_pos h, fracBits_le h,
      congrArg (BitVec.ofNat _ <| 2 ^ · - 1) (fracBits_eq _ x)⟩

end Sys2Proof.Rule

/-! SUPPORT. A lane's sign and magnitude under the bit operations of the rounding rules: the signed zero, clearing the
low bits, and one step of the lowest bit kept (R81, R85, R100, R112). -/

namespace Sys2Proof.Machine

/-- The mask of the low k bits takes the remainder. -/
theorem and_lowMask_toNat {w k : Nat} (hk : k ≤ w) (x : BitVec w) :
    (x &&& BitVec.ofNat w (2 ^ k - 1)).toNat = x.toNat % 2 ^ k := by
  have hlt : 2 ^ k - 1 < 2 ^ w :=
    (Nat.sub_lt (Nat.two_pow_pos k) Nat.one_pos).trans_le (Nat.pow_le_pow_right (by decide) hk)
  rw [BitVec.toNat_and, BitVec.toNat_ofNat, Nat.mod_eq_of_lt hlt, Nat.and_two_pow_sub_one_eq_mod]

/-- Clearing the low k bits takes the remainder off. -/
theorem and_not_lowMask_toNat {w : Nat} (k : Nat) (x : BitVec w) :
    (x &&& ~~~ BitVec.ofNat w (2 ^ k - 1)).toNat = x.toNat - x.toNat % 2 ^ k := by
  apply Nat.eq_of_testBit_eq
  intro i
  rw [← Nat.div_mul_self_eq_mod_sub_self, Nat.testBit_mul_two_pow, Nat.testBit_div_two_pow, BitVec.testBit_toNat,
    BitVec.testBit_toNat, BitVec.getLsbD_and, BitVec.getLsbD_not, BitVec.getLsbD_ofNat, Nat.testBit_two_pow_sub_one]
  rcases Nat.lt_or_ge i w with hi | hi
  · rcases Nat.lt_or_ge i k with hik | hik
    · simp [hik]
    · simp [hi, hik, Nat.not_lt.mpr hik, Nat.sub_add_cancel hik]
  · by_cases hik : k ≤ i <;> simp [hik, BitVec.getLsbD_of_ge x i hi]

/-- Adding the mask to a lane with a low bit set and clearing it is adding one unit above the mask (R112). -/
theorem add_lowMask_and_not {w k : Nat} {x : BitVec w} (hlt : x.toNat + 2 ^ k < 2 ^ w)
    (hlow : x &&& BitVec.ofNat w (2 ^ k - 1) ≠ 0) :
    (x + BitVec.ofNat w (2 ^ k - 1)) &&& ~~~ BitVec.ofNat w (2 ^ k - 1) =
      (x &&& ~~~ BitVec.ofNat w (2 ^ k - 1)) + BitVec.ofNat w (2 ^ k) := by
  have hk : k ≤ w := (Nat.pow_lt_pow_iff_right (by decide)).mp ((Nat.le_add_left _ _).trans_lt hlt) |>.le
  have hpos := Nat.two_pow_pos k
  have hrem : x.toNat % 2 ^ k ≠ 0 := by
    rw [← and_lowMask_toNat hk]
    exact fun h => hlow (BitVec.eq_of_toNat_eq (by simpa using h))
  have hdiv := Nat.div_add_mod' x.toNat (2 ^ k)
  have hmod := Nat.mod_lt x.toNat hpos
  have hsum : (x + BitVec.ofNat w (2 ^ k - 1)).toNat = x.toNat + (2 ^ k - 1) := by
    rw [BitVec.toNat_add, BitVec.toNat_ofNat, Nat.add_mod_mod, Nat.mod_eq_of_lt (by omega)]
  have hsummod : (x.toNat + (2 ^ k - 1)) % 2 ^ k = x.toNat % 2 ^ k - 1 := by
    rw [show x.toNat + (2 ^ k - 1) = x.toNat % 2 ^ k - 1 + 2 ^ k + x.toNat / 2 ^ k * 2 ^ k by omega,
      Nat.add_mul_mod_self_right, Nat.add_mod_right, Nat.mod_eq_of_lt (by omega)]
  apply BitVec.eq_of_toNat_eq
  rw [and_not_lowMask_toNat, hsum, hsummod, BitVec.toNat_add, and_not_lowMask_toNat, BitVec.toNat_ofNat,
    Nat.add_mod_mod, Nat.mod_eq_of_lt (b := 2 ^ w) (by omega)]
  omega

theorem one_shiftLeft_eq (w k : Nat) : 1#w <<< k = BitVec.ofNat w (2 ^ k) := by
  apply BitVec.eq_of_toNat_eq
  rw [BitVec.toNat_shiftLeft, BitVec.toNat_ofNat, BitVec.toNat_ofNat, Nat.shiftLeft_eq, Nat.mod_mul_mod, Nat.one_mul]

/-- The signed zero of a lane. -/
theorem and_signMask {w : Nat} (hw : 0 < w) (x : BitVec w) : x &&& signMask w = withSign (sign x) 0 := by
  have hmask : signMask w = BitVec.twoPow w (w - 1) := BitVec.eq_of_toNat_eq (by
    rw [signMask_toNat w hw, BitVec.toNat_twoPow_of_lt (Nat.sub_lt hw Nat.one_pos)])
  rw [withSign, hmask, BitVec.and_twoPow, sign_eq_getLsbD]
  simp

theorem magnitude_lt {w : Nat} (x : BitVec w) : (magnitude x).toNat < 2 ^ (w - 1) := by
  rw [magnitude_toNat]
  exact Nat.mod_lt _ (Nat.two_pow_pos _)

/-- The bits below the sign leave the same remainder in the lane and in its magnitude. -/
theorem toNat_mod_two_pow {w k : Nat} (hk : k < w) (x : BitVec w) : x.toNat % 2 ^ k = (magnitude x).toNat % 2 ^ k := by
  rw [magnitude_toNat, Nat.mod_mod_of_dvd _ (Nat.pow_dvd_pow 2 (by omega))]

theorem two_pow_eq_add {w : Nat} (hw : 0 < w) : 2 ^ w = 2 ^ (w - 1) + 2 ^ (w - 1) := by
  rw [← Nat.two_mul, ← Nat.pow_succ', Nat.succ_eq_add_one, Nat.sub_add_cancel hw]

/-- The weight of a sign bit. -/
theorem sign_mul_le (s : Bool) (n : Nat) : s.toNat * n ≤ n :=
  (Nat.mul_le_mul_right _ (Bool.toNat_le _)).trans_eq (Nat.one_mul _)

section
variable {F : Fmt} {w : Nat} (hF : LaneFormat F w)
include hF

/-- A lane as a number: its sign above its magnitude. -/
theorem toNat_eq_sign_add_magnitude (x : BitVec w) :
    x.toNat = (sign x).toNat * 2 ^ (w - 1) + (magnitude x).toNat := by
  rw [magnitude_toNat_eq_fields F hF.width, ← Nat.add_assoc, ← lane_decompose F hF.width]

theorem eq_withSign_of_toNat {x : BitVec w} {s : Bool} {n : Nat} (hn : n < 2 ^ (w - 1))
    (h : x.toNat = s.toNat * 2 ^ (w - 1) + n) : x = withSign s n :=
  BitVec.eq_of_toNat_eq (h.trans (withSign_toNat (Nat.zero_lt_of_lt hF.one_lt) s hn).symm)

/-- Clearing low bits of a lane clears them in its magnitude. -/
theorem and_not_lowMask_eq_withSign {k : Nat} (hk : k < w) (x : BitVec w) :
    x &&& ~~~ BitVec.ofNat w (2 ^ k - 1) = withSign (sign x) ((magnitude x).toNat - (magnitude x).toNat % 2 ^ k) := by
  have hle := Nat.mod_le (magnitude x).toNat (2 ^ k)
  refine eq_withSign_of_toNat hF ((Nat.sub_le _ _).trans_lt (magnitude_lt x)) ?_
  rw [and_not_lowMask_toNat, toNat_mod_two_pow hk, toNat_eq_sign_add_magnitude hF]
  omega

/-- One step of bit k above the cleared ones is a step of the magnitude, when that leaves the sign bit alone. -/
theorem and_not_lowMask_add_eq_withSign {k : Nat} (hk : k < w) {x : BitVec w}
    (hlt : (magnitude x).toNat + 2 ^ k < 2 ^ (w - 1)) :
    (x &&& ~~~ BitVec.ofNat w (2 ^ k - 1)) + BitVec.ofNat w (2 ^ k) =
      withSign (sign x) ((magnitude x).toNat - (magnitude x).toNat % 2 ^ k + 2 ^ k) := by
  have hle := Nat.mod_le (magnitude x).toNat (2 ^ k)
  have hpow := two_pow_eq_add (Nat.zero_lt_of_lt hF.one_lt)
  have hsign := sign_mul_le (sign x) (2 ^ (w - 1))
  refine eq_withSign_of_toNat hF (by omega) ?_
  rw [BitVec.toNat_add, and_not_lowMask_toNat, toNat_mod_two_pow hk, toNat_eq_sign_add_magnitude hF,
    BitVec.toNat_ofNat, Nat.add_mod_mod, Nat.mod_eq_of_lt (b := 2 ^ w) (by omega)]
  omega

end

section
variable {F : Fmt} {w : Nat} (hF : RoundingFormat F w) {x : BitVec w} (hmid : region F x = .middle)
include hF hmid

/-- In the middle region one integer step stays far below the infinity (R93). -/
theorem magnitude_add_fracUnit_lt : (magnitude x).toNat + 2 ^ fracBits F x < infPattern F := by
  have hfrac := frac_toNat_lt F hF.p_lt.le x
  have hunit := Nat.pow_le_pow_right (n := 2) (by decide) (fracBits_le hmid)
  have hexp : (expField F x + 2) * 2 ^ F.p ≤ infPattern F := by
    have := hF.p_lt_bias
    have := ((region_eq_middle_iff F x).mp hmid).2
    rw [infPattern, hF.expOnes_eq]
    exact Nat.mul_le_mul_right _ (by omega)
  rw [Nat.add_mul] at hexp
  rw [magnitude_toNat_eq_fields F hF.width]
  omega

theorem fracBits_lt : fracBits F x < w := (fracBits_le hmid).trans_lt hF.p_lt

theorem and_not_fracMask : x &&& ~~~ fracMask F x =
    withSign (sign x) ((magnitude x).toNat - (magnitude x).toNat % 2 ^ fracBits F x) :=
  and_not_lowMask_eq_withSign hF.toLaneFormat (fracBits_lt hF hmid) x

theorem and_not_fracMask_add : (x &&& ~~~ fracMask F x) + BitVec.ofNat w (2 ^ fracBits F x) =
    withSign (sign x) ((magnitude x).toNat - (magnitude x).toNat % 2 ^ fracBits F x + 2 ^ fracBits F x) :=
  and_not_lowMask_add_eq_withSign hF.toLaneFormat (fracBits_lt hF hmid)
    ((magnitude_add_fracUnit_lt hF hmid).trans hF.infPattern_lt)

/-- The increment of floor and ceil (R112). -/
theorem add_fracMask_and_not (hfrac : x &&& fracMask F x ≠ 0) : (x + fracMask F x) &&& ~~~ fracMask F x =
    (x &&& ~~~ fracMask F x) + BitVec.ofNat w (2 ^ fracBits F x) := by
  refine add_lowMask_and_not ?_ hfrac
  have hlt := (magnitude_add_fracUnit_lt hF hmid).trans hF.infPattern_lt
  have hsign := sign_mul_le (sign x) (2 ^ (w - 1))
  have hpow := two_pow_eq_add (Nat.zero_lt_of_lt hF.one_lt)
  rw [toNat_eq_sign_add_magnitude hF.toLaneFormat]
  omega

/-- The increment keeps the sign bit and stays finite (R93). -/
theorem increment_sign_and_expField (hfrac : x &&& fracMask F x ≠ 0) :
    sign ((x + fracMask F x) &&& ~~~ fracMask F x) = sign x ∧
      expField F ((x + fracMask F x) &&& ~~~ fracMask F x) < F.expOnes := by
  have hlt := magnitude_add_fracUnit_lt hF hmid
  have hle : (magnitude x).toNat - (magnitude x).toNat % 2 ^ fracBits F x + 2 ^ fracBits F x < infPattern F := by omega
  rw [add_fracMask_and_not hF hmid hfrac, and_not_fracMask_add hF hmid]
  refine ⟨sign_withSign_of_le hF.toLaneFormat hle.le, (expField_le F hF.width _).lt_of_ne ?_⟩
  rwa [← isFinite_iff_expField, isFinite_iff_lt hF.toLaneFormat, magnitude_withSign_of_le hF.toLaneFormat hle.le]

end

end Sys2Proof.Machine

/-! PROOF. The increment of floor and ceil (O49). -/

namespace Sys2Proof.Rule

open Sys2Proof.Machine

/-- Settles O49: adding the mask carries one unit above it, and the middle region leaves room for that. -/
theorem incrementIsOneIntegerStep : Obligations.IncrementIsOneIntegerStep := by
  refine ⟨fun x hmid hfrac => ⟨?_, increment_sign_and_expField roundingFormat_binary32 hmid hfrac⟩,
    fun x hmid hfrac => ⟨?_, increment_sign_and_expField roundingFormat_binary64 hmid hfrac⟩⟩
  · rw [one_shiftLeft_eq]
    exact add_fracMask_and_not roundingFormat_binary32 hmid hfrac
  · rw [one_shiftLeft_eq]
    exact add_fracMask_and_not roundingFormat_binary64 hmid hfrac

end Sys2Proof.Rule

/-! SUPPORT. Rounding a non-negative number to an integer: to nearest, ties to even (R109), and toward or away from
zero (R105, R107). -/

namespace Sys2Proof.Machine

/-- The integer nearest to a non-negative q, and the even one of two as near. -/
def nearestEven (q : ℚ) : Nat :=
  if q < ⌊q⌋₊ + 1 / 2 ∨ (q = ⌊q⌋₊ + 1 / 2 ∧ ⌊q⌋₊ % 2 = 0) then ⌊q⌋₊ else ⌊q⌋₊ + 1

/-- A non-negative q rounded away from zero or toward it. -/
def directed (away : Bool) (q : ℚ) : Nat := if away then ⌈q⌉₊ else ⌊q⌋₊

theorem directed_natCast (away : Bool) (n : Nat) : directed away n = n := by
  cases away <;> simp [directed]

theorem directed_le_ceil (away : Bool) (q : ℚ) : directed away q ≤ ⌈q⌉₊ := by
  cases away
  · exact Nat.floor_le_ceil q
  · exact le_rfl

/-- The model's rounding of a significand is to the nearest integer of quanta (R89). -/
theorem roundNearest_eq_nearestEven (M : Nat) (sh : Int) : roundNearest M sh = nearestEven ((M : ℚ) * 2 ^ (-sh)) := by
  rw [roundNearest_eq_ite, roundDown_eq_floor, nearestEven]

theorem nearestEven_natCast (n : Nat) : nearestEven n = n := by
  simp [nearestEven]

theorem nearestEven_eq_zero {q : ℚ} (h : q ≤ 1 / 2) : nearestEven q = 0 := by
  have hfloor : ⌊q⌋₊ = 0 := Nat.floor_eq_zero.mpr (by linarith)
  rw [nearestEven, hfloor, if_pos]
  rcases h.lt_or_eq with hlt | heq
  · exact .inl (by simpa using hlt)
  · exact .inr ⟨by simpa using heq, rfl⟩

/-- An even integer can be taken out. -/
theorem nearestEven_add_even {q : ℚ} (hq : 0 ≤ q) {m : Nat} (hm : m % 2 = 0) :
    nearestEven (q + m) = nearestEven q + m := by
  have hlt : q + m < ⌊q⌋₊ + m + 1 / 2 ↔ q < ⌊q⌋₊ + 1 / 2 := by constructor <;> intro _ <;> linarith
  have heq : q + m = ⌊q⌋₊ + m + 1 / 2 ↔ q = ⌊q⌋₊ + 1 / 2 := by constructor <;> intro _ <;> linarith
  have hmod : (⌊q⌋₊ + m) % 2 = ⌊q⌋₊ % 2 := by omega
  rw [nearestEven, nearestEven, Nat.floor_add_natCast hq, Nat.cast_add, hmod]
  simp only [hlt, heq]
  split_ifs <;> omega

/-- No integer is nearer, and on a tie it is even (R109). -/
theorem abs_sub_nearestEven {q : ℚ} (hq : 0 ≤ q) :
    |q - nearestEven q| ≤ 1 / 2 ∧ (|q - nearestEven q| = 1 / 2 → nearestEven q % 2 = 0) := by
  have hle := Nat.floor_le hq
  have hlt := Nat.lt_floor_add_one q
  rw [nearestEven]
  split_ifs with hdown
  · rw [abs_of_nonneg (by linarith)]
    rcases hdown with hbelow | ⟨htie, heven⟩
    · exact ⟨by linarith, fun h => absurd h (by linarith)⟩
    · exact ⟨by linarith, fun _ => heven⟩
  · simp only [not_or, not_lt, not_and] at hdown
    obtain ⟨habove, htie⟩ := hdown
    push_cast
    rw [abs_of_nonpos (by linarith)]
    refine ⟨by linarith, fun h => ?_⟩
    have := htie (by linarith)
    omega

theorem nearestEven_le_ceil {q : ℚ} (hq : 0 ≤ q) : nearestEven q ≤ ⌈q⌉₊ := by
  have hle := Nat.floor_le hq
  rw [nearestEven]
  split_ifs with hdown
  · exact Nat.floor_le_ceil q
  · rw [not_or, not_lt] at hdown
    exact Nat.lt_ceil.mpr (by linarith [hdown.1])

end Sys2Proof.Machine

/-! SUPPORT. A lane is its sign and the absolute value of its value; the values of the regions (R87, R100). -/

namespace Sys2Proof.Machine

/-- The lane y has the sign s and the absolute value q. -/
def SignedValue (F : Fmt) {w : Nat} (y : BitVec w) (s : Bool) (q : ℚ) : Prop := sign y = s ∧ |value F y| = q

section
variable {F : Fmt} {w : Nat} (hF : LaneFormat F w)
include hF

/-- Sign and absolute value leave one lane. -/
theorem SignedValue.unique {x y : BitVec w} {s : Bool} {q : ℚ} (hx : SignedValue F x s q) (hy : SignedValue F y s q) :
    x = y := by
  obtain ⟨hsx, hqx⟩ := hx
  obtain ⟨hsy, hqy⟩ := hy
  rw [abs_value hF] at hqx hqy
  rw [← withSign_sign_magnitude hF x, ← withSign_sign_magnitude hF y, hsx, hsy,
    (magValue_strictMono F).injective (hqx.trans hqy.symm)]

theorem signedValue_withSign (s : Bool) {n : Nat} (hn : n ≤ infPattern F) :
    SignedValue F (withSign s n : BitVec w) s (magValue F n) :=
  ⟨sign_withSign_of_le hF hn, by rw [abs_value hF, magnitude_withSign_of_le hF hn]⟩

theorem signedValue_zero (s : Bool) : SignedValue F (withSign s 0 : BitVec w) s 0 :=
  magValue_zero F ▸ signedValue_withSign hF s (Nat.zero_le _)

theorem value_eq_sign_mul_abs (x : BitVec w) : value F x = (if sign x then -1 else 1) * |value F x| := by
  rw [abs_value hF]
  exact value_eq_magValue hF x

theorem isFinite_iff_abs_value_lt (x : BitVec w) :
    isFinite F x = true ↔ |value F x| < magValue F (infPattern F) := by
  rw [isFinite_iff_lt hF, abs_value hF, (magValue_strictMono F).lt_iff_lt]

/-- The absolute value of a normal lane, of an infinity and of a NaN, the last two by the same formula (R87). -/
theorem abs_value_eq_significand {x : BitVec w} (hE : expField F x ≠ 0) :
    |value F x| = ((2 ^ F.p + (frac F x).toNat : Nat) : ℚ) * 2 ^ (-((F.bias : Int) + F.p - expField F x)) := by
  have hnonneg : (0 : ℚ) ≤ (2 ^ F.p + ((frac F x).toNat : ℚ)) * 2 ^ ((expField F x : Int) - F.bias - F.p) := by
    positivity
  rw [value_eq_fields F hF.p_lt.le, if_neg hE, abs_mul, abs_of_nonneg hnonneg,
    show (expField F x : Int) - F.bias - F.p = -((F.bias : Int) + F.p - expField F x) by ring]
  push_cast
  cases sign x <;> simp

end

/-- The pattern of an integer j whose unit is bit k of the significand. -/
theorem magValue_integer (F : Fmt) {k E j : Nat} (hE : E ≠ 0) (hk : k + E = F.bias + F.p)
    (hlow : 2 ^ F.p ≤ j * 2 ^ k) (hhigh : j * 2 ^ k ≤ 2 * 2 ^ F.p) : magValue F ((E - 1) * 2 ^ F.p + j * 2 ^ k) = j := by
  have hexp : ((E - 1 : Nat) : Int) + 1 - F.bias - F.p = -(k : Int) := by omega
  rw [magValue_pattern F (.inr hlow) hhigh, hexp, zpow_neg, zpow_natCast]
  push_cast
  rw [mul_inv_cancel_right₀ (by positivity)]

/-- The pattern of a power of two. -/
theorem magValue_expField (F : Fmt) {E : Nat} (hE : E ≠ 0) : magValue F (E * 2 ^ F.p) = 2 ^ ((E : Int) - F.bias) := by
  obtain ⟨E, rfl⟩ := Nat.exists_eq_succ_of_ne_zero hE
  rw [Nat.succ_mul, magValue_pattern F (.inr le_rfl) (by omega)]
  push_cast
  rw [← zpow_natCast, ← zpow_add₀ two_ne_zero]
  congr 1
  ring

section
variable {F : Fmt} {w : Nat} (hF : LaneFormat F w) (x : BitVec w)
include hF

/-- Below an exponent field, a lane's absolute value is below the power of two of that field. -/
theorem abs_value_lt_of_expField_lt {E : Nat} (h : expField F x < E) : |value F x| < 2 ^ ((E : Int) - F.bias) := by
  have hfrac := frac_toNat_lt F hF.p_lt.le x
  have hle := Nat.mul_le_mul_right (2 ^ F.p) (Nat.succ_le_of_lt h)
  rw [Nat.succ_mul] at hle
  rw [← magValue_expField F (Nat.ne_zero_of_lt h), abs_value hF, magnitude_toNat_eq_fields F hF.width,
    (magValue_strictMono F).lt_iff_lt]
  omega

/-- Every lane of the huge region has an integer value (R100). -/
theorem abs_value_eq_natCast (h : region F x = .huge) : ∃ n : Nat, |value F x| = n := by
  have hE := (region_eq_huge_iff F x).mp h
  have hbias := hF.bias_pos
  refine ⟨(2 ^ F.p + (frac F x).toNat) <<< (-((F.bias : Int) + F.p - expField F x)).toNat, ?_⟩
  rw [abs_value_eq_significand hF (by omega), shiftLeft_toNat_cast _ (by omega)]

/-- The small region lies below 1 (R100). -/
theorem abs_value_lt_one (h : region F x = .small) : |value F x| < 1 := by
  simpa using abs_value_lt_of_expField_lt hF x ((region_eq_small_iff F x).mp h)

end

section
variable {F : Fmt} {w : Nat} (hF : RoundingFormat F w) {x : BitVec w} (hmid : region F x = .middle)
include hF hmid

/-- In the middle region the significand counts units of 2^-(p-e) (R100). -/
theorem abs_value_middle : |value F x| = ((2 ^ F.p + (frac F x).toNat : Nat) : ℚ) / (2 ^ fracBits F x : Nat) := by
  have hk := fracBits_add_expField hmid
  have hle := fracBits_le hmid
  have hlt := hF.p_lt_bias
  rw [abs_value_eq_significand hF.toLaneFormat (by omega),
    show (F.bias : Int) + F.p - expField F x = (fracBits F x : Int) by omega, zpow_neg, zpow_natCast,
    ← div_eq_mul_inv]
  push_cast
  rfl

theorem floor_abs_value_middle : ⌊|value F x|⌋₊ = (2 ^ F.p + (frac F x).toNat) / 2 ^ fracBits F x := by
  rw [abs_value_middle hF hmid, Nat.floor_div_natCast, Nat.floor_natCast]

/-- The fractional bits are the remainder of the significand. -/
theorem magnitude_mod_fracUnit :
    (magnitude x).toNat % 2 ^ fracBits F x = (2 ^ F.p + (frac F x).toNat) % 2 ^ fracBits F x := by
  obtain ⟨m, hm⟩ : 2 ^ fracBits F x ∣ 2 ^ F.p := Nat.pow_dvd_pow 2 (fracBits_le hmid)
  rw [magnitude_toNat_eq_fields F hF.width, hm, ← Nat.mul_assoc, Nat.mul_comm (expField F x), Nat.mul_assoc,
    Nat.mul_add_mod, Nat.mul_add_mod]

theorem and_fracMask_toNat : (x &&& fracMask F x).toNat = (2 ^ F.p + (frac F x).toNat) % 2 ^ fracBits F x := by
  rw [fracMask, and_lowMask_toNat (fracBits_lt hF hmid).le, toNat_mod_two_pow (fracBits_lt hF hmid),
    magnitude_mod_fracUnit hF hmid]

/-- The value above its integer part, by the fractional bits. -/
theorem abs_value_eq_floor_add :
    |value F x| = ⌊|value F x|⌋₊ + ((x &&& fracMask F x).toNat : ℚ) / (2 ^ fracBits F x : Nat) := by
  have hpos : ((2 ^ fracBits F x : Nat) : ℚ) ≠ 0 := by positivity
  rw [floor_abs_value_middle hF hmid, abs_value_middle hF hmid, and_fracMask_toNat hF hmid, div_eq_iff hpos, add_mul,
    div_mul_cancel₀ _ hpos]
  exact_mod_cast (Nat.div_add_mod' _ _).symm

/-- The magnitude without its fractional bits, as the pattern of an integer. -/
theorem magnitude_sub_mod : (magnitude x).toNat - (magnitude x).toNat % 2 ^ fracBits F x =
    (expField F x - 1) * 2 ^ F.p + ⌊|value F x|⌋₊ * 2 ^ fracBits F x := by
  have hE := ((region_eq_middle_iff F x).mp hmid).1
  have hbias := hF.bias_pos
  have hdiv := Nat.div_add_mod' (2 ^ F.p + (frac F x).toNat) (2 ^ fracBits F x)
  have hsucc : expField F x * 2 ^ F.p = (expField F x - 1) * 2 ^ F.p + 2 ^ F.p := by
    rw [← Nat.add_one_mul, Nat.sub_add_cancel (by omega)]
  rw [magnitude_mod_fracUnit hF hmid, floor_abs_value_middle hF hmid, magnitude_toNat_eq_fields F hF.width, hsucc]
  omega

/-- The integer part of a middle lane lies in its binade, and the next integer at most at its end. -/
theorem floor_mul_fracUnit_bounds : 2 ^ F.p ≤ ⌊|value F x|⌋₊ * 2 ^ fracBits F x ∧
    (⌊|value F x|⌋₊ + 1) * 2 ^ fracBits F x ≤ 2 * 2 ^ F.p := by
  obtain ⟨m, hm⟩ : 2 ^ fracBits F x ∣ 2 ^ F.p := Nat.pow_dvd_pow 2 (fracBits_le hmid)
  have hpos := Nat.two_pow_pos (fracBits F x)
  have hfrac := frac_toNat_lt F hF.p_lt.le x
  have hlow : m ≤ (2 ^ F.p + (frac F x).toNat) / 2 ^ fracBits F x := by
    rw [Nat.le_div_iff_mul_le hpos, Nat.mul_comm, ← hm]
    omega
  have hhigh : (2 ^ F.p + (frac F x).toNat) / 2 ^ fracBits F x < 2 * m := by
    rw [Nat.div_lt_iff_lt_mul hpos, Nat.mul_assoc, Nat.mul_comm m, ← hm]
    omega
  rw [floor_abs_value_middle hF hmid]
  constructor
  · calc 2 ^ F.p = m * 2 ^ fracBits F x := by rw [hm, Nat.mul_comm]
      _ ≤ _ := Nat.mul_le_mul_right _ hlow
  · calc _ ≤ 2 * m * 2 ^ fracBits F x := Nat.mul_le_mul_right _ hhigh
      _ = 2 * 2 ^ F.p := by rw [hm, Nat.mul_assoc, Nat.mul_comm m]

/-- Clearing the fractional bits rounds toward zero (R101). -/
theorem signedValue_and_not_fracMask : SignedValue F (x &&& ~~~ fracMask F x) (sign x) ⌊|value F x|⌋₊ := by
  have hlt := magnitude_add_fracUnit_lt hF hmid
  obtain ⟨hlow, hhigh⟩ := floor_mul_fracUnit_bounds hF hmid
  have hk := fracBits_add_expField hmid
  have hle := fracBits_le hmid
  have hbias := hF.p_lt_bias
  have hpos := Nat.two_pow_pos (fracBits F x)
  rw [Nat.add_one_mul] at hhigh
  rw [and_not_fracMask hF hmid, ← magValue_integer F (by omega) hk hlow (by omega), ← magnitude_sub_mod hF hmid]
  exact signedValue_withSign hF.toLaneFormat _ (by omega)

/-- One step above the fractional bits is the next integer (R112). -/
theorem signedValue_and_not_fracMask_add :
    SignedValue F ((x &&& ~~~ fracMask F x) + BitVec.ofNat w (2 ^ fracBits F x)) (sign x)
      (⌊|value F x|⌋₊ + 1 : Nat) := by
  have hlt := magnitude_add_fracUnit_lt hF hmid
  obtain ⟨hlow, hhigh⟩ := floor_mul_fracUnit_bounds hF hmid
  have hk := fracBits_add_expField hmid
  have hle := fracBits_le hmid
  have hbias := hF.p_lt_bias
  have hlow' := hlow.trans (Nat.mul_le_mul_right _ (Nat.le_succ ⌊|value F x|⌋₊))
  rw [and_not_fracMask_add hF hmid, ← magValue_integer F (by omega) hk hlow' hhigh, Nat.succ_mul, ← Nat.add_assoc,
    ← magnitude_sub_mod hF hmid]
  exact signedValue_withSign hF.toLaneFormat _ (by omega)

end

end Sys2Proof.Machine

/-! SUPPORT. trunc, floor, ceil and round keep the sign and round the absolute value to an integer (R101 to R110). -/

namespace Sys2Proof.Machine

/-- On every lane, finite or not, `op` keeps the sign and rounds the absolute value to the integer that R gives for the
sign and the absolute value. -/
def RoundsBy (F : Fmt) {w : Nat} (op : BitVec w → BitVec w) (R : Bool → ℚ → Nat) : Prop :=
  ∀ x, SignedValue F (op x) (sign x) (R (sign x) |value F x|)

theorem withSign_false_zero (w : Nat) : (withSign false 0 : BitVec w) = 0#w := by
  simp [withSign]

theorem withSign_true_zero (w : Nat) : (withSign true 0 : BitVec w) = signMask w := by
  simp [withSign]

/-- 1.0 with a sign, as the constants write it (R92). -/
theorem withSign_one (F : Fmt) (w : Nat) (s : Bool) :
    (withSign s (F.bias * 2 ^ F.p) : BitVec w) = if s then negOne F w else posOne F w := by
  cases s <;> simp [withSign, negOne, posOne]

section
variable {F : Fmt} {w : Nat} (hF : LaneFormat F w)
include hF

theorem signedValue_one (s : Bool) : SignedValue F (withSign s (F.bias * 2 ^ F.p) : BitVec w) s 1 := by
  have hbias := hF.bias_pos
  have hle : F.bias * 2 ^ F.p ≤ infPattern F := Nat.mul_le_mul_right _ (by rw [hF.expOnes_eq]; omega)
  have hone : magValue F (F.bias * 2 ^ F.p) = 1 := by rw [magValue_expField F hbias.ne', sub_self, zpow_zero]
  exact hone ▸ signedValue_withSign hF s hle

theorem abs_value_eq_zero_iff (x : BitVec w) : |value F x| = 0 ↔ magnitude x = 0 := by
  rw [abs_value hF, ← magValue_zero F, (magValue_strictMono F).injective.eq_iff, ← BitVec.toNat_inj]
  simp

theorem SignedValue.value_eq {y : BitVec w} {s : Bool} {q : ℚ} (h : SignedValue F y s q) :
    value F y = (if s then -1 else 1) * q := by
  rw [value_eq_sign_mul_abs hF, h.1, h.2]

/-- A lane that is its own rounding. -/
theorem signedValue_huge {R : Bool → ℚ → Nat} (hR : ∀ s (n : Nat), R s n = n) {x : BitVec w}
    (h : region F x = .huge) : SignedValue F x (sign x) (R (sign x) |value F x|) := by
  obtain ⟨n, hn⟩ := abs_value_eq_natCast hF x h
  exact ⟨rfl, by rw [hn, hR]⟩

/-- Below 1, away from zero is 1 and toward zero is 0. -/
theorem signedValue_small_directed (away : Bool) {x : BitVec w} (h : region F x = .small) :
    SignedValue F (withSign (sign x) (if away = true ∧ magnitude x ≠ 0 then F.bias * 2 ^ F.p else 0) : BitVec w)
      (sign x) (directed away |value F x|) := by
  have hlt := abs_value_lt_one hF x h
  cases away with
  | false => simpa [directed, Nat.floor_eq_zero.mpr hlt] using signedValue_zero hF (sign x)
  | true =>
    by_cases h0 : magnitude x = 0#w
    · simpa [directed, h0, (abs_value_eq_zero_iff hF x).mpr h0] using signedValue_zero hF (sign x)
    · have hpos : 0 < |value F x| := (abs_nonneg _).lt_of_ne' (mt (abs_value_eq_zero_iff hF x).mp h0)
      have hceil : ⌈|value F x|⌉₊ = 1 :=
        (Nat.ceil_eq_iff one_ne_zero).mpr ⟨by rwa [Nat.sub_self, Nat.cast_zero], by simpa using hlt.le⟩
      simpa [directed, h0, hceil] using signedValue_one hF (sign x)

theorem signedValue_and_signMask (x : BitVec w) : SignedValue F (x &&& signMask w) (sign x) 0 := by
  rw [and_signMask (Nat.zero_lt_of_lt hF.one_lt)]
  exact signedValue_zero hF _

/-- The other result of round below 1 (R109). -/
theorem and_signMask_or_posOne (x : BitVec w) :
    (x &&& signMask w) ||| posOne F w = withSign (sign x) (F.bias * 2 ^ F.p) := by
  rw [and_signMask (Nat.zero_lt_of_lt hF.one_lt)]
  simp [withSign, posOne]

end

section
variable {F : Fmt} {w : Nat} (hF : RoundingFormat F w)
include hF

/-- In the middle region the increment rounds away from zero and clearing rounds toward it (R105, R107). -/
theorem signedValue_middle_directed (away : Bool) {x : BitVec w} (hmid : region F x = .middle) :
    SignedValue F (if away = true ∧ x &&& fracMask F x ≠ 0 then (x + fracMask F x) &&& ~~~ fracMask F x
      else x &&& ~~~ fracMask F x) (sign x) (directed away |value F x|) := by
  have hsum := abs_value_eq_floor_add hF hmid
  split_ifs with hup
  · obtain ⟨rfl, hfrac⟩ := hup
    have hpos : 0 < (x &&& fracMask F x).toNat :=
      Nat.pos_of_ne_zero fun h => hfrac (BitVec.eq_of_toNat_eq (by simpa using h))
    have hlt : (⌊|value F x|⌋₊ : ℚ) < |value F x| := by
      have : (0 : ℚ) < ((x &&& fracMask F x).toNat : ℚ) / (2 ^ fracBits F x : Nat) := by positivity
      linarith
    have hceil : ⌈|value F x|⌉₊ = ⌊|value F x|⌋₊ + 1 :=
      le_antisymm (Nat.ceil_le_floor_add_one _) (Nat.lt_ceil.mpr hlt)
    rw [add_fracMask_and_not hF hmid hfrac, directed, if_pos rfl, hceil]
    exact signedValue_and_not_fracMask_add hF hmid
  · have hdirected : directed away |value F x| = ⌊|value F x|⌋₊ := by
      cases away with
      | false => rfl
      | true =>
        have hfrac : x &&& fracMask F x = 0 := not_not.mp fun h => hup ⟨rfl, h⟩
        rw [hfrac, BitVec.ofNat_eq_ofNat, BitVec.toNat_zero, Nat.cast_zero, zero_div, add_zero] at hsum
        rw [hsum, directed_natCast, Nat.floor_natCast]
    rw [hdirected]
    exact signedValue_and_not_fracMask hF hmid

theorem roundsBy_trunc : RoundsBy F (trunc F (w := w)) fun _ => directed false := by
  intro x
  unfold trunc
  split
  next h => exact signedValue_huge hF.toLaneFormat (fun _ => directed_natCast false) h
  next h =>
    have hfloor : directed false |value F x| = 0 := Nat.floor_eq_zero.mpr (abs_value_lt_one hF.toLaneFormat x h)
    simpa only [hfloor, Nat.cast_zero] using signedValue_and_signMask hF.toLaneFormat x
  next h => exact signedValue_and_not_fracMask hF h

theorem roundsBy_floor : RoundsBy F (floor F (w := w)) directed := by
  intro x
  unfold floor
  split
  next h => exact signedValue_huge hF.toLaneFormat directed_natCast h
  next h =>
    convert signedValue_small_directed hF.toLaneFormat (sign x) h using 1
    cases sign x
    · simp [withSign_false_zero]
    · by_cases h0 : magnitude x = 0#w <;> simp [h0, withSign_true_zero, withSign_one]
  next h => exact signedValue_middle_directed hF (sign x) h

theorem roundsBy_ceil : RoundsBy F (ceil F (w := w)) fun s => directed !s := by
  intro x
  unfold ceil
  split
  next h => exact signedValue_huge hF.toLaneFormat (fun s => directed_natCast !s) h
  next h =>
    convert signedValue_small_directed hF.toLaneFormat (!sign x) h using 1
    cases hs : sign x
    · by_cases h0 : x = 0#w
      · simp [h0, magnitude, withSign_false_zero]
      · have := magnitude_ne_zero_of_sign_false hs h0
        simp_all [withSign_one]
    · simp [withSign_true_zero]
  next h =>
    have hmiddle := signedValue_middle_directed hF (!sign x) h
    simpa only [Bool.not_eq_true'] using hmiddle

/-- A lane of 1/2 or less is nearest to 0, a larger one below 1 nearest to 1 (R109). -/
theorem nearestEven_half_binade {x : BitVec w} (hE : expField F x = F.bias - 1) :
    nearestEven |value F x| = if frac F x = 0 then 0 else 1 := by
  have hlt := hF.p_lt_bias
  have hp := hF.p_pos
  have hfrac := frac_toNat_lt F hF.p_lt.le x
  have hpow : 2 ^ (F.p + 1) = 2 * 2 ^ F.p := Nat.pow_succ'
  have hshift : (F.bias : Int) + F.p - expField F x = (F.p + 1 : Nat) := by omega
  rw [abs_value_eq_significand hF.toLaneFormat (by omega), ← roundNearest_eq_nearestEven, roundNearest, hshift,
    if_neg (by omega), Int.toNat_natCast, Nat.shiftRight_eq_div_pow, Nat.div_eq_of_lt (by omega),
    Nat.mod_eq_of_lt (by omega), Nat.add_sub_cancel]
  simp only [frac_eq_zero_iff, Nat.zero_mod, zero_ne_one, and_false, or_false]
  split_ifs <;> omega

theorem frac_or_two_pow (x : BitVec w) : (frac F x).toNat ||| 2 ^ F.p = 2 ^ F.p + (frac F x).toNat := by
  simpa [Nat.or_comm] using (Nat.two_pow_add_eq_or_of_lt (frac_toNat_lt F hF.p_lt.le x) 1).symm

/-- In the middle region round compares the fraction with a half, as R89 does with a significand. -/
theorem signedValue_middle_nearest {x : BitVec w} (hmid : region F x = .middle) :
    SignedValue F (roundEven F x) (sign x) (nearestEven |value F x|) := by
  obtain ⟨hlow, hhigh⟩ := (region_eq_middle_iff F x).mp hmid
  have hbias := hF.bias_pos
  have hk := fracBits_pos hmid
  have hmask : BitVec.ofNat w (2 ^ fracBits F x - 1) = fracMask F x := rfl
  have hnear : nearestEven |value F x| =
      roundNearest (2 ^ F.p + (frac F x).toNat) (fracBits F x : Int) := by
    rw [roundNearest_eq_nearestEven, zpow_neg, zpow_natCast, ← div_eq_mul_inv, abs_value_middle hF hmid, Nat.cast_pow,
      Nat.cast_ofNat]
  rw [roundNearest, if_neg (by omega), Int.toNat_natCast, Nat.shiftRight_eq_div_pow,
    ← floor_abs_value_middle hF hmid, ← and_fracMask_toNat hF hmid] at hnear
  simp only [roundEven, if_neg (Nat.not_le.mpr hhigh), if_neg (show ¬ expField F x < F.bias - 1 by omega),
    if_neg (show ¬ expField F x = F.bias - 1 by omega), hnear, frac_or_two_pow hF, ← fracBits_eq,
    Nat.shiftRight_eq_div_pow, ← floor_abs_value_middle hF hmid, hmask]
  split_ifs
  · exact signedValue_and_not_fracMask_add hF hmid
  · exact signedValue_and_not_fracMask hF hmid

theorem roundsBy_roundEven : RoundsBy F (roundEven F (w := w)) fun _ => nearestEven := by
  intro x
  have hbias := hF.bias_pos
  change SignedValue F (roundEven F x) (sign x) (nearestEven |value F x|)
  rcases lt_trichotomy (expField F x) (F.bias - 1) with hlt | heq | hgt
  · have hsmall : |value F x| ≤ 1 / 2 := by
      refine (abs_value_lt_of_expField_lt hF.toLaneFormat x hlt).le.trans_eq ?_
      rw [Nat.cast_sub hbias, Nat.cast_one, sub_sub_cancel_left]
      norm_num
    rw [roundEven, if_neg (by omega), if_pos hlt, nearestEven_eq_zero hsmall, Nat.cast_zero]
    exact signedValue_and_signMask hF.toLaneFormat x
  · rw [roundEven, if_neg (by omega), if_neg (by omega), if_pos heq, nearestEven_half_binade hF heq]
    split_ifs
    · rw [Nat.cast_zero]
      exact signedValue_and_signMask hF.toLaneFormat x
    · rw [and_signMask_or_posOne hF.toLaneFormat, Nat.cast_one]
      exact signedValue_one hF.toLaneFormat (sign x)
  · rcases Nat.lt_or_ge (expField F x) (F.bias + F.p) with hmid | hhuge
    · exact signedValue_middle_nearest hF ((region_eq_middle_iff F x).mpr ⟨by omega, hmid⟩)
    · rw [roundEven, if_pos hhuge]
      exact signedValue_huge hF.toLaneFormat (fun _ => nearestEven_natCast) ((region_eq_huge_iff F x).mpr hhuge)

end

/-- Rounding a rounded lane changes nothing, because integers are their own rounding (R114 a). -/
theorem RoundsBy.idempotent {F : Fmt} {w : Nat} (hF : LaneFormat F w) {op : BitVec w → BitVec w}
    {R : Bool → ℚ → Nat} (hop : RoundsBy F op R) (hR : ∀ s (n : Nat), R s n = n) (x : BitVec w) : op (op x) = op x := by
  obtain ⟨hsign, habs⟩ := hop x
  refine (hop (op x)).unique hF ?_
  rw [habs, hR, hsign]
  exact hop x

/-- No rounding to an integer leaves the finite lanes (R93, R114 e). -/
theorem RoundsBy.isFinite {F : Fmt} {w : Nat} (hF : RoundingFormat F w) {op : BitVec w → BitVec w}
    {R : Bool → ℚ → Nat} (hop : RoundsBy F op R) (hR : ∀ s (q : ℚ), 0 ≤ q → R s q ≤ ⌈q⌉₊) {x : BitVec w}
    (hfin : isFinite F x = true) : isFinite F (op x) = true := by
  rw [isFinite_iff_abs_value_lt hF.toLaneFormat] at hfin ⊢
  have hle : |value F (op x)| ≤ (⌈|value F x|⌉₊ : ℚ) := by
    rw [(hop x).2]
    exact_mod_cast hR _ _ (abs_nonneg _)
  by_cases hreg : region F x = .huge
  · obtain ⟨n, hn⟩ := abs_value_eq_natCast hF.toLaneFormat x hreg
    rw [hn, Nat.ceil_natCast, ← hn] at hle
    exact hle.trans_lt hfin
  · have hE := mt (region_eq_huge_iff F x).mpr hreg
    have hlt := abs_value_lt_of_expField_lt hF.toLaneFormat x (Nat.lt_of_not_le hE)
    have hexp : F.bias + F.p < F.expOnes := by
      have := hF.p_lt_bias
      rw [hF.expOnes_eq]
      omega
    have hmag : magValue F ((F.bias + F.p) * 2 ^ F.p) = (2 ^ F.p : Nat) := by
      have := hF.bias_pos
      rw [magValue_expField F (by omega), Nat.cast_add, add_sub_cancel_left, zpow_natCast, Nat.cast_pow, Nat.cast_ofNat]
    rw [Nat.cast_add, add_sub_cancel_left, zpow_natCast] at hlt
    calc |value F (op x)| ≤ (⌈|value F x|⌉₊ : ℚ) := hle
      _ ≤ (2 ^ F.p : Nat) := by exact_mod_cast Nat.ceil_le.mpr (by exact_mod_cast hlt.le)
      _ < magValue F (infPattern F) := by
        rw [← hmag]
        exact magValue_strictMono F (Nat.mul_lt_mul_of_pos_right hexp (Nat.two_pow_pos _))

section
variable {F : Fmt} {w : Nat} (hF : RoundingFormat F w) (x : BitVec w)
include hF

/-- The value of trunc, of either sign (R101, R102). -/
theorem value_trunc : value F (trunc F x) =
    if 0 ≤ value F x then (⌊value F x⌋ : ℚ) else (⌈value F x⌉ : ℚ) := by
  have hy := (roundsBy_trunc hF x).value_eq hF.toLaneFormat
  have hx := value_eq_sign_mul_abs hF.toLaneFormat x
  have hnonneg := abs_nonneg (value F x)
  generalize |value F x| = q at hx hy hnonneg
  rw [hx, hy]
  cases sign x with
  | false => simp [directed, hnonneg, natCast_floor_eq_intCast_floor hnonneg]
  | true =>
    rcases hnonneg.eq_or_lt with rfl | hpos
    · simp [directed]
    · simp [directed, hpos.not_ge, Int.ceil_neg, natCast_floor_eq_intCast_floor hnonneg]

theorem value_floor : value F (floor F x) = (⌊value F x⌋ : ℚ) := by
  have hy := (roundsBy_floor hF x).value_eq hF.toLaneFormat
  have hx := value_eq_sign_mul_abs hF.toLaneFormat x
  have hnonneg := abs_nonneg (value F x)
  generalize |value F x| = q at hx hy hnonneg
  rw [hx, hy]
  cases sign x with
  | false => simp [directed, natCast_floor_eq_intCast_floor hnonneg]
  | true => simp [directed, Int.floor_neg, natCast_ceil_eq_intCast_ceil hnonneg]

theorem value_ceil : value F (ceil F x) = (⌈value F x⌉ : ℚ) := by
  have hy := (roundsBy_ceil hF x).value_eq hF.toLaneFormat
  have hx := value_eq_sign_mul_abs hF.toLaneFormat x
  have hnonneg := abs_nonneg (value F x)
  generalize |value F x| = q at hx hy hnonneg
  rw [hx, hy]
  cases sign x with
  | false => simp [directed, natCast_ceil_eq_intCast_ceil hnonneg]
  | true => simp [directed, Int.ceil_neg, natCast_floor_eq_intCast_floor hnonneg]

/-- The value of round is the nearest integer, the even one on a tie (R109, R110). -/
theorem value_roundEven : ∃ n : Int, value F (roundEven F x) = (n : ℚ) ∧ |value F x - (n : ℚ)| ≤ 1 / 2 ∧
    (|value F x - (n : ℚ)| = 1 / 2 → n % 2 = 0) := by
  have hy := (roundsBy_roundEven hF x).value_eq hF.toLaneFormat
  have hx := value_eq_sign_mul_abs hF.toLaneFormat x
  obtain ⟨hnear, heven⟩ := abs_sub_nearestEven (abs_nonneg (value F x))
  generalize |value F x| = q at hx hy hnear heven
  rw [hx, hy]
  cases sign x with
  | false =>
    refine ⟨nearestEven q, by simp, by simpa using hnear, fun h => ?_⟩
    have := heven (by simpa using h)
    omega
  | true =>
    have hneg : -1 * q - ((-(nearestEven q : Int) : Int) : ℚ) = -(q - nearestEven q) := by
      push_cast
      ring
    refine ⟨-nearestEven q, by simp, ?_⟩
    simp only [if_true, hneg, abs_neg]
    refine ⟨hnear, fun h => ?_⟩
    have := heven h
    omega

theorem isFinite_trunc {x : BitVec w} (h : isFinite F x = true) : isFinite F (trunc F x) = true :=
  (roundsBy_trunc hF).isFinite hF (fun _ q _ => directed_le_ceil false q) h

theorem isFinite_floor {x : BitVec w} (h : isFinite F x = true) : isFinite F (floor F x) = true :=
  (roundsBy_floor hF).isFinite hF (fun s q _ => directed_le_ceil s q) h

theorem isFinite_ceil {x : BitVec w} (h : isFinite F x = true) : isFinite F (ceil F x) = true :=
  (roundsBy_ceil hF).isFinite hF (fun s q _ => directed_le_ceil (!s) q) h

theorem isFinite_roundEven {x : BitVec w} (h : isFinite F x = true) : isFinite F (roundEven F x) = true :=
  (roundsBy_roundEven hF).isFinite hF (fun _ _ => nearestEven_le_ceil) h

/-- The four roundings are idempotent (R114 a). -/
theorem rounding_idempotent : trunc F (trunc F x) = trunc F x ∧ floor F (floor F x) = floor F x ∧
    ceil F (ceil F x) = ceil F x ∧ roundEven F (roundEven F x) = roundEven F x :=
  ⟨(roundsBy_trunc hF).idempotent hF.toLaneFormat (fun _ => directed_natCast false) x,
    (roundsBy_floor hF).idempotent hF.toLaneFormat directed_natCast x,
    (roundsBy_ceil hF).idempotent hF.toLaneFormat (fun s => directed_natCast !s) x,
    (roundsBy_roundEven hF).idempotent hF.toLaneFormat (fun _ => nearestEven_natCast) x⟩

end

end Sys2Proof.Machine

/-! PROOF. The values of the four roundings (O43 to O46) and their idempotence (O47). -/

namespace Sys2Proof.Rule

open Sys2Proof.Machine

/-- Settles O43: floor rounds the absolute value up under a set sign bit and down otherwise, for each format. -/
theorem floorIsTheIntegerFloor : Obligations.FloorIsTheIntegerFloor :=
  ⟨fun x h => ⟨isFinite_floor roundingFormat_binary32 h, value_floor roundingFormat_binary32 x⟩,
    fun x h => ⟨isFinite_floor roundingFormat_binary64 h, value_floor roundingFormat_binary64 x⟩⟩

/-- Settles O44: ceil rounds the absolute value down under a set sign bit and up otherwise, for each format. -/
theorem ceilIsTheIntegerCeiling : Obligations.CeilIsTheIntegerCeiling :=
  ⟨fun x h => ⟨isFinite_ceil roundingFormat_binary32 h, value_ceil roundingFormat_binary32 x⟩,
    fun x h => ⟨isFinite_ceil roundingFormat_binary64 h, value_ceil roundingFormat_binary64 x⟩⟩

/-- Settles O45: trunc rounds the absolute value down, for each format. -/
theorem truncIsTheIntegerPartTowardZero : Obligations.TruncIsTheIntegerPartTowardZero :=
  ⟨fun x h => ⟨isFinite_trunc roundingFormat_binary32 h, value_trunc roundingFormat_binary32 x⟩,
    fun x h => ⟨isFinite_trunc roundingFormat_binary64 h, value_trunc roundingFormat_binary64 x⟩⟩

/-- Settles O46: round takes the absolute value to its nearest integer, for each format. -/
theorem roundIsTheNearestIntegerTiesToEven : Obligations.RoundIsTheNearestIntegerTiesToEven := by
  refine ⟨fun x h => ?_, fun x h => ?_⟩
  · obtain ⟨n, hn⟩ := value_roundEven roundingFormat_binary32 x
    exact ⟨n, isFinite_roundEven roundingFormat_binary32 h, hn⟩
  · obtain ⟨n, hn⟩ := value_roundEven roundingFormat_binary64 x
    exact ⟨n, isFinite_roundEven roundingFormat_binary64 h, hn⟩

/-- Settles O47: a rounded lane has an integer value, which every rounding keeps, and a NaN is in the huge region. -/
theorem roundingIsIdempotent : Obligations.RoundingIsIdempotent :=
  ⟨rounding_idempotent roundingFormat_binary32, rounding_idempotent roundingFormat_binary64⟩

end Sys2Proof.Rule

/-! PROOF. round answers as its rules say (O38, O39). -/

namespace Sys2Proof.Rule

open Sys2Proof.Machine

/-- The parity of a number by its last bit. -/
theorem and_one_eq_one_iff {w : Nat} (hw : 1 < w) (y : BitVec w) : y &&& 1#w = 1#w ↔ y.toNat % 2 = 1 := by
  have hone : (1#w).toNat = 1 := by rw [BitVec.toNat_ofNat, Nat.mod_eq_of_lt (Nat.one_lt_two_pow (by omega))]
  rw [← BitVec.toNat_inj, BitVec.toNat_and, hone, Nat.and_one_is_mod]

theorem roundEven_eq_roundF32 (x : BitVec 32) : roundEven binary32 x = roundF32 x := by
  simp only [roundF32, and_one_eq_one_iff (show 1 < 32 by decide), BitVec.toNat_ushiftRight, BitVec.toNat_or,
    one_shiftLeft_eq]
  rfl

theorem roundEven_eq_roundF64 (x : BitVec 64) : roundEven binary64 x = roundF64 x := by
  simp only [roundF64, and_one_eq_one_iff (show 1 < 64 by decide), BitVec.toNat_ushiftRight, BitVec.toNat_or,
    one_shiftLeft_eq]
  rfl

/-- Settles O38: each form applies round to its lanes, which is the rule's pseudocode. -/
theorem roundBinary32 : Obligations.RoundBinary32 := by
  refine ⟨rfl, rfl, rfl, ?_, ?_, ?_, by decide⟩
  all_goals exact unaryAnswers_of_lane_eq _ (fun _ => rfl) (by decide) (by decide) roundEven_eq_roundF32

/-- Settles O39: each form applies round to its lanes, which is the rule's pseudocode. -/
theorem roundBinary64 : Obligations.RoundBinary64 := by
  refine ⟨rfl, rfl, rfl, ?_, ?_, ?_, by decide⟩
  all_goals exact unaryAnswers_of_lane_eq _ (fun _ => rfl) (by decide) (by decide) roundEven_eq_roundF64

end Sys2Proof.Rule

/-! SUPPORT. Arithmetic in a format whose result is exact: the IEEE-754 sum and difference by their values (R88, R89,
R103). -/

namespace Sys2Proof.Machine

theorem signedValue_self (F : Fmt) {w : Nat} (x : BitVec w) : SignedValue F x (sign x) |value F x| := ⟨rfl, rfl⟩

/-- The signs of equal nonzero numbers agree. -/
theorem sign_eq_of_mul_eq {s t : Bool} {a b : ℚ} (ha : 0 < a) (hb : 0 ≤ b)
    (h : (if s then -1 else 1) * a = (if t then -1 else 1) * b) : s = t := by
  cases s <;> cases t <;> simp at h ⊢ <;> linarith

section
variable {w : Nat} (y : BitVec w)

theorem magnitude_fpNeg : magnitude (fpNeg y) = magnitude y := by
  unfold magnitude fpNeg magMask
  ext i hi
  simp only [BitVec.getElem_and, BitVec.getElem_xor, BitVec.getElem_not]
  cases (signMask w)[i] <;> simp

theorem sign_fpNeg (hw : 0 < w) : sign (fpNeg y) = !sign y := by
  rw [sign_eq_getLsbD, sign_eq_getLsbD, fpNeg, BitVec.getLsbD_xor, signMask_getLsbD]
  simp [hw]

theorem expField_fpNeg (F : Fmt) : expField F (fpNeg y) = expField F y := by
  rw [← expField_magnitude, magnitude_fpNeg, expField_magnitude]

theorem isNaN_fpNeg {F : Fmt} (hw : F.p < w) : isNaN F (fpNeg y) = isNaN F y := by
  rw [isNaN, isNaN, expField_fpNeg, ← frac_magnitude F hw, magnitude_fpNeg, frac_magnitude F hw]

theorem isInf_fpNeg {F : Fmt} (hw : F.p < w) : isInf F (fpNeg y) = isInf F y := by
  rw [isInf, isInf, expField_fpNeg, ← frac_magnitude F hw, magnitude_fpNeg, frac_magnitude F hw]

theorem isFinite_fpNeg (F : Fmt) : isFinite F (fpNeg y) = isFinite F y := by
  rw [isFinite, isFinite, expField_fpNeg]

/-- A lane that is not finite is a NaN or an infinity (R86). -/
theorem isNaN_or_isInf {F : Fmt} {x : BitVec w} (h : expField F x = F.expOnes) :
    isNaN F x = true ∨ isInf F x = true := by
  by_cases hf : frac F x = 0 <;> simp_all [isNaN, isInf]

end

section
variable {F : Fmt} {w : Nat} (hF : LaneFormat F w)
include hF

theorem signedValue_fpNeg {y : BitVec w} {s : Bool} {q : ℚ} (h : SignedValue F y s q) :
    SignedValue F (fpNeg y) (!s) q := by
  obtain ⟨hs, hq⟩ := h
  refine ⟨by rw [sign_fpNeg y (Nat.zero_lt_of_lt hF.one_lt), hs], ?_⟩
  rw [abs_value hF, magnitude_fpNeg, ← abs_value hF, hq]

theorem value_fpNeg (y : BitVec w) : value F (fpNeg y) = -value F y := by
  rw [(signedValue_fpNeg hF (signedValue_self F y)).value_eq hF, value_eq_sign_mul_abs hF y]
  cases sign y <;> simp

/-- Rounding an exact value that a finite lane has gives that lane (R89). -/
theorem rne_eq_of_value {v : Exact} {x : BitVec w} (hM : v.M ≠ 0) (hfin : isFinite F x = true)
    (hx : value F x = v.toRat) : rne F w v = x := by
  have hr := (representable_iff_exists_value hF hM).mpr ⟨x, hfin, hx⟩
  have hmag : magValue F (magnitude x).toNat = |v.toRat| := by rw [← abs_value hF, hx]
  have hsign : v.s = sign x := by
    refine sign_eq_of_mul_eq (abs_pos.mpr (toRat_ne_zero hM)) (abs_nonneg (value F x)) ?_
    rw [← toRat_eq_sign_mul_abs, ← hx, ← value_eq_sign_mul_abs hF]
  rw [rne_eq_faithfulDown F w hr, faithfulDown_of_representable hF hM hr, floorPattern_eq_of_magValue F hM hmag, hsign,
    withSign_sign_magnitude hF]

omit hF in
/-- The sum of finite lanes is their exact sum, rounded once, or a zero (R103). -/
theorem fpAdd_of_isFinite (d : BitVec w) {x y : BitVec w} (hx : isFinite F x = true) (hy : isFinite F y = true) :
    fpAdd F d x y = if (exactSum (decodeLane F x) (decodeLane F y)).M = 0 then
      if isZero x = true ∧ isZero y = true ∧ sign x = true ∧ sign y = true then signMask w else 0#w
      else rne F w (exactSum (decodeLane F x) (decodeLane F y)) := by
  rw [isFinite_iff_expField] at hx hy
  simp [fpAdd, isNaN_eq_false_of_expField_ne F hx, isNaN_eq_false_of_expField_ne F hy,
    isInf_eq_false_of_expField_ne F hx, isInf_eq_false_of_expField_ne F hy]

omit hF in
/-- A sum that is not zero is rounded once. -/
theorem fpAdd_eq_rne (d : BitVec w) {x y : BitVec w} (hx : isFinite F x = true) (hy : isFinite F y = true)
    (h : value F x + value F y ≠ 0) : fpAdd F d x y = rne F w (exactSum (decodeLane F x) (decodeLane F y)) := by
  rw [fpAdd_of_isFinite d hx hy, if_neg (M_ne_zero_of_toRat_ne_zero ?_)]
  rwa [toRat_exactSum]

/-- A sum that a finite nonzero lane has is that lane. -/
theorem fpAdd_eq_of_value (d : BitVec w) {x y z : BitVec w} (hx : isFinite F x = true) (hy : isFinite F y = true)
    (hz : isFinite F z = true) (h : value F x + value F y = value F z) (h0 : value F z ≠ 0) : fpAdd F d x y = z := by
  have hsum : (exactSum (decodeLane F x) (decodeLane F y)).toRat = value F z := by rw [toRat_exactSum, ← h]; rfl
  rw [fpAdd_eq_rne d hx hy (h ▸ h0)]
  exact rne_eq_of_value hF (M_ne_zero_of_toRat_ne_zero (hsum ▸ h0)) hz hsum.symm

omit hF in
/-- A zero sum of operands that are not both negative is +0. -/
theorem fpAdd_eq_zero (d : BitVec w) {x y : BitVec w} (hx : isFinite F x = true) (hy : isFinite F y = true)
    (h : value F x + value F y = 0) (hs : sign x = false ∨ sign y = false) : fpAdd F d x y = 0#w := by
  have hM : (exactSum (decodeLane F x) (decodeLane F y)).M = 0 := by
    by_contra hM
    exact toRat_ne_zero hM ((toRat_exactSum _ _).trans h)
  rw [fpAdd_of_isFinite d hx hy, if_pos hM, if_neg]
  rintro ⟨-, -, hsx, hsy⟩
  simp [hsx, hsy] at hs

/-- The same of a difference. -/
theorem fpSub_eq_of_value (d : BitVec w) {x y z : BitVec w} (hx : isFinite F x = true) (hy : isFinite F y = true)
    (hz : isFinite F z = true) (h : value F x - value F y = value F z) (h0 : value F z ≠ 0) : fpSub F d x y = z := by
  rw [fpSub, isNaN_eq_false_of_expField_ne F ((isFinite_iff_expField F y).mp hy), if_neg Bool.false_ne_true]
  exact fpAdd_eq_of_value hF d hx (by rwa [isFinite_fpNeg]) hz (by rw [value_fpNeg hF, ← h, sub_eq_add_neg]) h0

theorem fpSub_eq_zero (d : BitVec w) {x y : BitVec w} (hx : isFinite F x = true) (hy : isFinite F y = true)
    (h : value F x = value F y) (hs : sign x = false ∨ sign y = true) : fpSub F d x y = 0#w := by
  rw [fpSub, isNaN_eq_false_of_expField_ne F ((isFinite_iff_expField F y).mp hy), if_neg Bool.false_ne_true]
  refine fpAdd_eq_zero d hx (by rwa [isFinite_fpNeg]) (by rw [value_fpNeg hF, h, add_neg_cancel]) ?_
  rwa [sign_fpNeg y (Nat.zero_lt_of_lt hF.one_lt), Bool.not_eq_false']

/-- A NaN or an infinity minus itself is a NaN draw (R103). -/
theorem fpSub_self_of_not_finite (d : BitVec w) {x : BitVec w} (h : expField F x = F.expOnes) :
    fpSub F d x x = anyNaN F d := by
  rw [fpSub]
  rcases isNaN_or_isInf h with hnan | hinf
  · rw [if_pos hnan]
  · split_ifs with hnan
    · rfl
    · rw [fpAdd, isNaN_fpNeg x hF.p_lt, if_neg (by simpa using hnan), if_pos hinf, if_pos]
      refine ⟨(isInf_fpNeg x hF.p_lt).trans hinf, ?_⟩
      rw [sign_fpNeg x (Nat.zero_lt_of_lt hF.one_lt)]
      cases sign x <;> decide

end

end Sys2Proof.Machine

/-! SUPPORT. fract in closed form (R103, R104): the fractional bits as a lane of their own. -/

namespace Sys2Proof.Machine

/-- y is a result that the fract rule admits for x: the pseudocode of R103 and R104, for either format. -/
def FractRule (F : Fmt) {w : Nat} (x y : BitVec w) : Prop :=
  if expField F x = F.expOnes then isNaN F y = true
  else if magnitude x = 0 then y = 0#w
  else if unbiasedExp F x ≥ F.p then y = 0#w
  else if unbiasedExp F x < 0 then y = x
  else
    let f := (x &&& fracMask F x).toNat
    if f = 0 then y = 0#w
    else
      let L := f.log2 + 1
      y = (x &&& signMask w) ||| BitVec.ofNat w (((L : Int) - 1 + unbiasedExp F x - F.p + F.bias).toNat * 2 ^ F.p) |||
        (BitVec.ofNat w (f * 2 ^ (F.p + 1 - L)) &&& mantissaMask F w)

/-- The pattern of f units of 2^-k, for f below 2^k: f shifted up to p + 1 bits, in the binade of its top bit. -/
def fractPattern (F : Fmt) (k f : Nat) : Nat := (F.bias - k + f.log2 - 1) * 2 ^ F.p + f * 2 ^ (F.p - f.log2)

/-- Shifted up, the fraction has p + 1 bits. -/
theorem fract_significand_bounds (F : Fmt) {f : Nat} (hf : f ≠ 0) (hlog : f.log2 ≤ F.p) :
    2 ^ F.p ≤ f * 2 ^ (F.p - f.log2) ∧ f * 2 ^ (F.p - f.log2) < 2 * 2 ^ F.p := by
  have hpow : 2 ^ f.log2 * 2 ^ (F.p - f.log2) = 2 ^ F.p := by rw [← Nat.pow_add, Nat.add_sub_cancel' hlog]
  rw [← hpow, ← Nat.mul_assoc, ← Nat.pow_succ']
  exact ⟨Nat.mul_le_mul_right _ (Nat.log2_self_le hf),
    Nat.mul_lt_mul_of_pos_right Nat.lt_log2_self (Nat.two_pow_pos _)⟩

/-- A sign, an exponent field and the low bits of a significand, put together (R81). -/
theorem or_mantissa_eq_withSign {F : Fmt} {w : Nat} (hF : LaneFormat F w) {x : BitVec w} {E q : Nat}
    (hlow : 2 ^ F.p ≤ q) (hhigh : q < 2 * 2 ^ F.p) :
    (x &&& signMask w) ||| BitVec.ofNat w ((E + 1) * 2 ^ F.p) ||| (BitVec.ofNat w q &&& mantissaMask F w) =
      withSign (sign x) (E * 2 ^ F.p + q) := by
  have hmask : BitVec.ofNat w q &&& mantissaMask F w = BitVec.ofNat w (q - 2 ^ F.p) := by
    have hqmod : q % 2 ^ F.p = q - 2 ^ F.p := by
      rw [Nat.mod_eq_sub_mod hlow, Nat.mod_eq_of_lt (by omega)]
    have hqw : q < 2 ^ w := hhigh.trans_le (by
      rw [← Nat.pow_succ']
      exact Nat.pow_le_pow_right (by decide) hF.p_lt)
    apply BitVec.eq_of_toNat_eq
    rw [mantissaMask, and_lowMask_toNat hF.p_lt.le, BitVec.toNat_ofNat, BitVec.toNat_ofNat, Nat.mod_eq_of_lt hqw, hqmod,
      Nat.mod_eq_of_lt (by omega)]
  have hsum : E * 2 ^ F.p + q = (E + 1) * 2 ^ F.p ||| (q - 2 ^ F.p) := by
    rw [Nat.mul_comm (E + 1), ← Nat.two_pow_add_eq_or_of_lt (by omega), Nat.mul_add_one, Nat.mul_comm E]
    omega
  rw [hmask, and_signMask (Nat.zero_lt_of_lt hF.one_lt), BitVec.or_assoc, ← BitVec.ofNat_or, ← hsum]
  simp [withSign]

section
variable {F : Fmt} {w : Nat} (hF : RoundingFormat F w)
include hF

theorem magValue_fractPattern {k f : Nat} (hk : k ≤ F.p) (hf : f ≠ 0) (hlt : f < 2 ^ k) :
    magValue F (fractPattern F k f) = (f : ℚ) / (2 ^ k : Nat) ∧ fractPattern F k f < infPattern F := by
  have hbias := hF.p_lt_bias
  have hlog : f.log2 < k := (Nat.log2_lt hf).mpr hlt
  obtain ⟨hlow, hhigh⟩ := fract_significand_bounds F hf (by omega)
  have hexp : ((F.bias - k + f.log2 - 1 : Nat) : Int) + 1 - F.bias - F.p =
      -(k : Int) + -((F.p - f.log2 : Nat) : Int) := by
    omega
  rw [fractPattern]
  constructor
  · rw [magValue_pattern F (.inr hlow) hhigh.le, hexp, zpow_add₀ two_ne_zero, zpow_neg, zpow_neg, zpow_natCast,
      zpow_natCast]
    push_cast
    field_simp
  · exact (hF.pattern_lt_infPattern_iff hhigh (.inr hlow)).mpr (by omega)

section
variable {x : BitVec w} (hmid : region F x = .middle) (hf : x &&& fracMask F x ≠ 0)
include hmid hf

/-- The fractional bits as a number of units of 2^-(p-e). -/
theorem fracBits_toNat_bounds : (x &&& fracMask F x).toNat ≠ 0 ∧ (x &&& fracMask F x).toNat < 2 ^ fracBits F x := by
  refine ⟨fun h => hf (BitVec.eq_of_toNat_eq (by simpa using h)), ?_⟩
  rw [and_fracMask_toNat hF hmid]
  exact Nat.mod_lt _ (Nat.two_pow_pos _)

/-- In the middle region fract is the fractional bits' own lane, exactly. -/
theorem fract_middle (d : BitVec w) :
    fract F d x = withSign (sign x) (fractPattern F (fracBits F x) (x &&& fracMask F x).toNat) := by
  obtain ⟨hlow, hhigh⟩ := (region_eq_middle_iff F x).mp hmid
  obtain ⟨hf0, hflt⟩ := fracBits_toNat_bounds hF hmid hf
  have hbias := hF.p_lt_bias
  have hones := hF.expOnes_eq
  have hk := fracBits_add_expField hmid
  obtain ⟨hval, hfin⟩ := magValue_fractPattern hF (fracBits_le hmid) hf0 hflt
  have hexp : unbiasedExp F x - (F.p : Int) = -(fracBits F x : Int) := by
    rw [unbiasedExp]
    omega
  have hmag : magnitude x ≠ 0 := by
    intro h
    rw [← expField_magnitude, h] at hlow
    simp [expField, magnitude] at hlow
    omega
  have hsv := signedValue_withSign hF.toLaneFormat (sign x) hfin.le
  rw [fract_eq, if_neg (by omega), if_neg hmag, if_neg (by omega), if_neg (by rw [unbiasedExp]; omega), if_neg hf, hexp]
  refine rne_eq_of_value hF.toLaneFormat hf0 ?_ ?_
  · rwa [isFinite_iff_lt hF.toLaneFormat, magnitude_withSign_of_le hF.toLaneFormat hfin.le]
  · rw [hsv.value_eq hF.toLaneFormat, hval, Exact.toRat, zpow_neg, zpow_natCast, mul_assoc, Nat.cast_pow,
      Nat.cast_ofNat, div_eq_mul_inv]

/-- The closed form as the pseudocode writes it (R103, R104, last line). -/
theorem fract_middle_bits (d : BitVec w) :
    fract F d x = (x &&& signMask w) |||
      BitVec.ofNat w (((((x &&& fracMask F x).toNat.log2 + 1 : Nat) : Int) - 1 + unbiasedExp F x - F.p + F.bias).toNat *
        2 ^ F.p) |||
      (BitVec.ofNat w ((x &&& fracMask F x).toNat * 2 ^ (F.p + 1 - ((x &&& fracMask F x).toNat.log2 + 1))) &&&
        mantissaMask F w) := by
  obtain ⟨hf0, hflt⟩ := fracBits_toNat_bounds hF hmid hf
  have hk := fracBits_add_expField hmid
  have hkp := fracBits_le hmid
  have hbias := hF.p_lt_bias
  rw [fract_middle hF hmid hf, fractPattern]
  generalize (x &&& fracMask F x).toNat = f at hf0 hflt
  have hlog : f.log2 < fracBits F x := (Nat.log2_lt hf0).mpr hflt
  obtain ⟨hlow, hhigh⟩ := fract_significand_bounds F hf0 (by omega)
  have hexp : (((f.log2 + 1 : Nat) : Int) - 1 + unbiasedExp F x - F.p + F.bias).toNat =
      F.bias - fracBits F x + f.log2 - 1 + 1 := by
    rw [unbiasedExp]
    omega
  rw [hexp, Nat.add_sub_add_right, or_mantissa_eq_withSign hF.toLaneFormat hlow hhigh]

end

/-- fract gives what its rule admits, whatever is drawn (R103, R104). -/
theorem fractRule_fract (d x : BitVec w) : FractRule F x (fract F d x) := by
  unfold FractRule
  split_ifs with hE hzero hhuge hsmall
  · rw [fract_eq_anyNaN F d hE]
    exact isNaN_anyNaN hF.toLaneFormat d
  · rw [fract_eq, if_neg hE, if_pos hzero]
  · rw [fract_eq, if_neg hE, if_neg hzero, if_pos hhuge]
  · rw [fract_eq, if_neg hE, if_neg hzero, if_neg hhuge, if_pos hsmall]
  · dsimp only
    split_ifs with hf
    · have hf : x &&& fracMask F x = 0 := BitVec.eq_of_toNat_eq (by simpa using hf)
      rw [fract_eq, if_neg hE, if_neg hzero, if_neg hhuge, if_neg hsmall, if_pos hf]
    · refine fract_middle_bits hF (region_middle F x (by omega) (by omega)) (fun h => hf ?_) d
      rw [h]
      simp

/-- fract of a finite lane: +0 of an integer, otherwise a nonzero lane with the sign of x and the fraction for its
absolute value (R103, R104, R114 f). -/
theorem fract_spec (d : BitVec w) {x : BitVec w} (hfin : isFinite F x = true) :
    (fract F d x = 0#w ∧ |value F x| = ⌊|value F x|⌋₊) ∨
    (isFinite F (fract F d x) = true ∧ SignedValue F (fract F d x) (sign x) (|value F x| - ⌊|value F x|⌋₊) ∧
      |value F x| ≠ ⌊|value F x|⌋₊) := by
  have hE := (isFinite_iff_expField F x).mp hfin
  by_cases hzero : magnitude x = 0
  · left
    rw [(abs_value_eq_zero_iff hF.toLaneFormat x).mpr hzero, fract_eq, if_neg hE, if_pos hzero]
    simp
  cases hreg : region F x with
  | huge =>
    left
    obtain ⟨n, hn⟩ := abs_value_eq_natCast hF.toLaneFormat x hreg
    rw [hn, Nat.floor_natCast, fract, if_neg hE, if_neg hzero, hreg]
    exact ⟨rfl, rfl⟩
  | small =>
    right
    have hfloor := Nat.floor_eq_zero.mpr (abs_value_lt_one hF.toLaneFormat x hreg)
    have hx : fract F d x = x := by rw [fract, if_neg hE, if_neg hzero, hreg]
    rw [hx, hfloor, Nat.cast_zero, sub_zero]
    exact ⟨hfin, signedValue_self F x, mt (abs_value_eq_zero_iff hF.toLaneFormat x).mp hzero⟩
  | middle =>
    have hsum := abs_value_eq_floor_add hF hreg
    by_cases hf : x &&& fracMask F x = 0
    · left
      rw [hf] at hsum
      refine ⟨?_, by simpa using hsum⟩
      rw [fract, if_neg hE, if_neg hzero, hreg]
      exact if_pos hf
    · right
      obtain ⟨hf0, hflt⟩ := fracBits_toNat_bounds hF hreg hf
      obtain ⟨hval, hlt⟩ := magValue_fractPattern hF (fracBits_le hreg) hf0 hflt
      have hpos : (0 : ℚ) < ((x &&& fracMask F x).toNat : ℚ) / (2 ^ fracBits F x : Nat) := by
        have := Nat.pos_of_ne_zero hf0
        positivity
      rw [fract_middle hF hreg hf, isFinite_iff_lt hF.toLaneFormat, magnitude_withSign_of_le hF.toLaneFormat hlt.le,
        ← eq_sub_of_add_eq' hsum.symm, ← hval]
      exact ⟨hlt, signedValue_withSign hF.toLaneFormat _ hlt.le, by linarith⟩

end

end Sys2Proof.Machine

/-! PROOF. fract answers as its rules say (O32, O33). -/

namespace Sys2Proof.Rule

open Sys2Proof.Machine

theorem fractF32_fract (d x : BitVec 32) : FractF32 x (fract binary32 d x) := by
  have hrule := fractRule_fract roundingFormat_binary32 d x
  rwa [FractRule, ← isNaN32_iff] at hrule

/-- A worked value of fract is admitted. -/
theorem fractF32_of_eq {x y : BitVec 32} (h : fract binary32 0 x = y) : FractF32 x y := h ▸ fractF32_fract 0 x

theorem fractF64_fract (d x : BitVec 64) : FractF64 x (fract binary64 d x) := by
  have hrule := fractRule_fract roundingFormat_binary64 d x
  rwa [FractRule, ← isNaN64_iff] at hrule

/-- A worked value of fract is admitted. -/
theorem fractF64_of_eq {x y : BitVec 64} (h : fract binary64 0 x = y) : FractF64 x y := h ▸ fractF64_fract 0 x

/-- Settles O32: each form applies fract to its lanes, which gives what the rule's pseudocode admits. -/
theorem fractBinary32 : Obligations.FractBinary32 := by
  refine ⟨rfl, rfl, rfl, ?_, ?_, ?_, fractF32_of_eq (by decide), fractF32_of_eq (by decide),
    fractF32_of_eq (by decide), fractF32_of_eq (by decide)⟩
  all_goals
    exact unaryAnswers_of_exec (fun _ => fract binary32) (fun _ => rfl) (by decide) (by decide) fun _ => fractF32_fract

/-- Settles O33: each form applies fract to its lanes, which gives what the rule's pseudocode admits. -/
theorem fractBinary64 : Obligations.FractBinary64 := by
  refine ⟨rfl, rfl, rfl, ?_, ?_, ?_, fractF64_of_eq (by decide), fractF64_of_eq (by decide),
    fractF64_of_eq (by decide)⟩
  all_goals
    exact unaryAnswers_of_exec (fun _ => fract binary64) (fun _ => rfl) (by decide) (by decide) fun _ => fractF64_fract

end Sys2Proof.Rule

/-! SUPPORT. fract as a difference and as a summand (R103, R104, R113, R114 b), and the magic-number round (R111). -/

namespace Sys2Proof.Machine

theorem magicNumber_eq (F : Fmt) (w : Nat) : magicNumber F w = withSign false ((F.bias + F.p) * 2 ^ F.p) := by
  simp [magicNumber, withSign]

/-- A sign put back on a magnitude of that sign. -/
theorem and_signMask_or_magnitude {F : Fmt} {w : Nat} (hF : LaneFormat F w) {x y : BitVec w} (h : sign y = sign x) :
    (x &&& signMask w) ||| magnitude y = y := by
  nth_rw 2 [← withSign_sign_magnitude hF y]
  rw [and_signMask (Nat.zero_lt_of_lt hF.one_lt), h]
  simp [withSign]

theorem value_magnitude {F : Fmt} {w : Nat} (hF : LaneFormat F w) (x : BitVec w) :
    value F (magnitude x) = |value F x| := by
  rw [value_eq_magValue hF, sign_magnitude (Nat.zero_lt_of_lt hF.one_lt), magnitude_magnitude, ← abs_value hF]
  simp

theorem nearestEven_le_two_pow {q : ℚ} (hq : 0 ≤ q) {n : Nat} (hlt : q < 2 ^ n) : nearestEven q ≤ 2 ^ n :=
  (nearestEven_le_ceil hq).trans (Nat.ceil_le.mpr (by exact_mod_cast hlt.le))

theorem isFinite_magnitude (F : Fmt) {w : Nat} (x : BitVec w) : isFinite F (magnitude x) = isFinite F x := by
  rw [isFinite, isFinite, expField_magnitude]

section
variable {F : Fmt} {w : Nat} (hF : RoundingFormat F w)
include hF

/-- The results of the rounding family on a finite lane have its sign bit, or are +0 (R114 e, f). -/
theorem rounding_sign {x : BitVec w} (hfin : isFinite F x = true) :
    sign (trunc F x) = sign x ∧ sign (floor F x) = sign x ∧ sign (ceil F x) = sign x ∧
      sign (roundEven F x) = sign x ∧ ∀ d, fract F d x = 0#w ∨ sign (fract F d x) = sign x :=
  ⟨(roundsBy_trunc hF x).1, (roundsBy_floor hF x).1, (roundsBy_ceil hF x).1, (roundsBy_roundEven hF x).1,
    fun d => (fract_spec hF d hfin).imp And.left fun ⟨_, ⟨hsign, _⟩, _⟩ => hsign⟩

theorem trunc_of_not_finite {x : BitVec w} (h : expField F x = F.expOnes) : trunc F x = x := by
  have hbias := hF.p_lt_bias
  have hones := hF.expOnes_eq
  rw [trunc, (region_eq_huge_iff F x).mpr (by omega)]

theorem zero_spec : isFinite F (0#w) = true ∧ value F (0#w) = 0 ∧ sign (0#w) = false := by
  have hpos := hF.infPattern_pos
  obtain ⟨hsign, habs⟩ := signedValue_zero hF.toLaneFormat false
  rw [withSign_false_zero] at hsign habs
  exact ⟨by rwa [isFinite_iff_lt hF.toLaneFormat, magnitude, BitVec.zero_and], abs_eq_zero.mp habs, hsign⟩

/-- By their values trunc and fract add up to the lane (R113). -/
theorem value_trunc_add_fract (d : BitVec w) {x : BitVec w} (hfin : isFinite F x = true) :
    value F (trunc F x) + value F (fract F d x) = value F x := by
  have ht : SignedValue F (trunc F x) (sign x) ⌊|value F x|⌋₊ := roundsBy_trunc hF x
  rcases fract_spec hF d hfin with ⟨hf, hint⟩ | ⟨-, hf, -⟩
  · rw [hf, (zero_spec hF).2.1, add_zero, ht.value_eq hF.toLaneFormat, ← hint,
      ← value_eq_sign_mul_abs hF.toLaneFormat]
  · rw [ht.value_eq hF.toLaneFormat, hf.value_eq hF.toLaneFormat, ← mul_add, add_sub_cancel,
      ← value_eq_sign_mul_abs hF.toLaneFormat]

/-- fract is the difference of the lane and its trunc (R103, R104, R113). -/
theorem fract_eq_fractDifference (d x : BitVec w) : fract F d x = fractDifference F d x := by
  rw [fractDifference]
  by_cases hE : expField F x = F.expOnes
  · rw [fract_eq_anyNaN F d hE, trunc_of_not_finite hF hE, fpSub_self_of_not_finite hF.toLaneFormat d hE]
  · have hfin := (isFinite_iff_expField F x).mpr hE
    have htrunc := isFinite_trunc hF hfin
    have hsum := value_trunc_add_fract hF d hfin
    rcases fract_spec hF d hfin with ⟨hf, -⟩ | ⟨hffin, hf, hne⟩
    · rw [hf, (zero_spec hF).2.1, add_zero] at hsum
      rw [hf, fpSub_eq_zero hF.toLaneFormat d hfin htrunc hsum.symm]
      rw [(roundsBy_trunc hF x).1]
      exact (Bool.eq_false_or_eq_true (sign x)).symm
    · refine (fpSub_eq_of_value hF.toLaneFormat d hfin htrunc hffin (sub_eq_of_eq_add' hsum.symm) ?_).symm
      rw [← abs_ne_zero, hf.2, sub_ne_zero]
      exact hne

/-- trunc and fract add up to the lane, but for -0, where the zeros +0 and -0 add up to +0 (R114 b). -/
theorem fpAdd_trunc_fract (d d' : BitVec w) {x : BitVec w} (hfin : isFinite F x = true) :
    fpAdd F d' (trunc F x) (fract F d x) = if x = signMask w then 0#w else x := by
  obtain ⟨hzfin, -, hzsign⟩ := zero_spec hF
  have htrunc := isFinite_trunc hF hfin
  have hsum := value_trunc_add_fract hF d hfin
  have hffin : isFinite F (fract F d x) = true := by
    rcases fract_spec hF d hfin with ⟨hf, -⟩ | ⟨hffin, -⟩
    · exact hf ▸ hzfin
    · exact hffin
  by_cases h0 : value F x = 0
  · have hmag := (abs_value_eq_zero_iff hF.toLaneFormat x).mp (abs_eq_zero.mpr h0)
    have hx : x = withSign (sign x) 0 := by simpa [hmag] using (withSign_sign_magnitude hF.toLaneFormat x).symm
    have hfract : fract F d x = 0#w := by rw [fract_eq, if_neg ((isFinite_iff_expField F x).mp hfin), if_pos hmag]
    rw [fpAdd_eq_zero d' htrunc hffin (hsum.trans h0) (.inr (hfract ▸ hzsign))]
    split_ifs with hneg
    · rfl
    · cases hs : sign x with
      | false => rw [hx, hs, withSign_false_zero]
      | true => exact absurd (by rw [hx, hs, withSign_true_zero]) hneg
  · have hneg : x ≠ signMask w := by
      rintro rfl
      refine h0 (abs_eq_zero.mp ((abs_value_eq_zero_iff hF.toLaneFormat _).mpr ?_))
      rw [magnitude, magMask]
      ext i
      simp
    rw [if_neg hneg, fpAdd_eq_of_value hF.toLaneFormat d' htrunc hffin hfin hsum h0]

/-- A value in the binade of 2^p is rounded to the nearest integer (R89). -/
theorem nearPattern_of_binade {v : Exact} (hlow : 2 ^ F.p ≤ |v.toRat|) (hhigh : |v.toRat| < 2 ^ (F.p + 1)) :
    nearPattern F v = (F.bias + F.p - 1) * 2 ^ F.p + nearestEven |v.toRat| := by
  have hM : v.M ≠ 0 := M_ne_zero_of_toRat_ne_zero (abs_pos.mp ((by positivity : (0 : ℚ) < 2 ^ F.p).trans_le hlow))
  have hbias := hF.p_lt_bias
  have hbinade : binade v.M v.k = F.p := by
    have hle := (two_zpow_binade_le_abs_toRat hM).trans_lt hhigh
    have hge := hlow.trans_lt (abs_toRat_lt_two_zpow_binade hM)
    rw [← zpow_natCast, zpow_lt_zpow_iff_right₀ one_lt_two] at hle hge
    push_cast at hle
    omega
  have hexp : roundExp F v.M v.k = F.p := by
    rw [roundExp, hbinade, if_neg (by omega)]
  have hindex : roundIndex F v = F.bias + F.p - 1 := by
    rw [roundIndex, hexp]
    omega
  have hquanta : quanta F v = |v.toRat| := by
    rw [← quanta_mul_quantum F, hexp, sub_self, zpow_zero, mul_one]
  rw [nearPattern, hindex, roundNearest_eq_nearestEven, ← quanta, hquanta]

/-- Patterns up to 2^p above the magic number are finite. -/
theorem magic_add_lt {r : Nat} (hr : r ≤ 2 ^ F.p) : (F.bias + F.p) * 2 ^ F.p + r < infPattern F := by
  have hbias := hF.p_lt_bias
  have hle := Nat.mul_le_mul_right (2 ^ F.p) (show F.bias + F.p + 2 ≤ F.expOnes by rw [hF.expOnes_eq]; omega)
  have hpos := Nat.two_pow_pos F.p
  rw [Nat.add_mul] at hle
  rw [infPattern]
  omega

theorem isFinite_magic_add {r : Nat} (hr : r ≤ 2 ^ F.p) :
    isFinite F (withSign false ((F.bias + F.p) * 2 ^ F.p + r) : BitVec w) = true := by
  have hlt := magic_add_lt hF hr
  rwa [isFinite_iff_lt hF.toLaneFormat, magnitude_withSign_of_le hF.toLaneFormat hlt.le]

theorem magic_eq_add : (F.bias + F.p) * 2 ^ F.p = (F.bias + F.p - 1) * 2 ^ F.p + 2 ^ F.p := by
  have hbias := hF.p_lt_bias
  rw [← Nat.add_one_mul, Nat.sub_add_cancel (by omega)]

/-- The integers up to 2^p above 2^p are the magic number's next patterns (R111). -/
theorem value_magic_add {r : Nat} (hr : r ≤ 2 ^ F.p) :
    value F (withSign false ((F.bias + F.p) * 2 ^ F.p + r) : BitVec w) = 2 ^ F.p + r := by
  have hbias := hF.p_lt_bias
  have hexp : ((F.bias + F.p - 1 : Nat) : Int) + 1 - F.bias - F.p = 0 := by omega
  rw [(signedValue_withSign hF.toLaneFormat false (magic_add_lt hF hr).le).value_eq hF.toLaneFormat, magic_eq_add hF,
    Nat.add_assoc, magValue_pattern F (.inr (Nat.le_add_right _ _)) (by omega), hexp]
  simp

/-- The magic number itself is 2^p. -/
theorem magicNumber_spec : isFinite F (magicNumber F w) = true ∧ value F (magicNumber F w) = 2 ^ F.p := by
  have hfin := isFinite_magic_add hF (w := w) (Nat.zero_le _)
  have hval := value_magic_add hF (w := w) (Nat.zero_le _)
  rw [Nat.add_zero, ← magicNumber_eq] at hfin hval
  exact ⟨hfin, by rw [hval, Nat.cast_zero, add_zero]⟩

/-- Rounding q above 2^p rounds q to the nearest integer: there the quantum is 1 (R89, R111). -/
theorem rne_two_pow_add {v : Exact} {q : ℚ} (hq : 0 ≤ q) (hlt : q < 2 ^ F.p) (hv : v.toRat = q + (2 ^ F.p : Nat)) :
    rne F w v = withSign false ((F.bias + F.p) * 2 ^ F.p + nearestEven q) := by
  have hpos : (0 : ℚ) < (2 ^ F.p : Nat) := by positivity
  have habs : |v.toRat| = q + (2 ^ F.p : Nat) := by rw [hv, abs_of_nonneg (by linarith)]
  have hM : v.M ≠ 0 := M_ne_zero_of_toRat_ne_zero (by rw [hv]; linarith)
  have hs : v.s = false := by
    refine sign_eq_of_mul_eq (abs_pos.mpr (toRat_ne_zero hM)) (by linarith : 0 ≤ v.toRat) ?_
    rw [← toRat_eq_sign_mul_abs]
    simp
  have heven : 2 ^ F.p % 2 = 0 := by
    obtain ⟨m, hm⟩ := Nat.exists_eq_succ_of_ne_zero hF.p_pos.ne'
    rw [hm, Nat.pow_succ, Nat.mul_mod_left]
  have hnear : nearPattern F v = (F.bias + F.p) * 2 ^ F.p + nearestEven q := by
    rw [nearPattern_of_binade hF, habs, nearestEven_add_even hq heven, magic_eq_add hF]
    · omega
    · rw [habs]
      push_cast
      linarith
    · rw [habs, pow_succ]
      push_cast
      linarith
  rw [rne_eq_withSign_min hF.toLaneFormat hM, hs, hnear,
    min_eq_left (magic_add_lt hF (nearestEven_le_two_pow hq hlt)).le]

/-- Adding 2^p rounds the magnitude of a lane below it to the nearest integer (R111). -/
theorem fpAdd_magicNumber (d : BitVec w) {x : BitVec w} (hfin : isFinite F x = true) (hlt : |value F x| < 2 ^ F.p) :
    fpAdd F d (magnitude x) (magicNumber F w) =
      withSign false ((F.bias + F.p) * 2 ^ F.p + nearestEven |value F x|) := by
  have hnonneg := abs_nonneg (value F x)
  obtain ⟨hmfin, hmagic⟩ := magicNumber_spec hF (w := w)
  have hsum : value F (magnitude x) + value F (magicNumber F w) = |value F x| + (2 ^ F.p : Nat) := by
    rw [value_magnitude hF.toLaneFormat, hmagic, Nat.cast_pow, Nat.cast_ofNat]
  rw [fpAdd_eq_rne d (by rwa [isFinite_magnitude]) hmfin (by rw [hsum]; positivity)]
  exact rne_two_pow_add hF hnonneg hlt ((toRat_exactSum _ _).trans hsum)

/-- Taking 2^p away again leaves the magnitude of round (R111). -/
theorem fpSub_fpAdd_magicNumber (d : BitVec w) {x : BitVec w} (hE : expField F x < F.bias + F.p) :
    fpSub F d (fpAdd F d (magnitude x) (magicNumber F w)) (magicNumber F w) = magnitude (roundEven F x) := by
  have hbias := hF.p_lt_bias
  have hfin : isFinite F x = true := (isFinite_iff_expField F x).mpr (by rw [hF.expOnes_eq]; omega)
  have hlt := abs_value_lt_of_expField_lt hF.toLaneFormat x hE
  rw [Nat.cast_add, add_sub_cancel_left, zpow_natCast] at hlt
  have hle := nearestEven_le_two_pow (abs_nonneg (value F x)) hlt
  have hround : value F (magnitude (roundEven F x)) = nearestEven |value F x| := by
    rw [value_magnitude hF.toLaneFormat]
    exact (roundsBy_roundEven hF x).2
  obtain ⟨hmfin, hmagic⟩ := magicNumber_spec hF (w := w)
  rw [fpAdd_magicNumber hF d hfin hlt]
  by_cases h0 : nearestEven |value F x| = 0
  · have hmag : magnitude (roundEven F x) = 0 := by
      rw [← abs_value_eq_zero_iff hF.toLaneFormat, ← value_magnitude hF.toLaneFormat, hround, h0, Nat.cast_zero]
    rw [h0, hmag, Nat.add_zero, ← magicNumber_eq]
    refine fpSub_eq_zero hF.toLaneFormat d hmfin hmfin rfl (.inl ?_)
    rw [magicNumber_eq]
    exact sign_withSign_of_le hF.toLaneFormat (magic_add_lt hF (Nat.zero_le _)).le
  · refine fpSub_eq_of_value hF.toLaneFormat d (isFinite_magic_add hF hle) hmfin ?_ ?_ ?_
    · rw [isFinite_magnitude]
      exact isFinite_roundEven hF hfin
    · rw [value_magic_add hF hle, hmagic, hround, add_sub_cancel_left]
    · rw [hround]
      exact_mod_cast h0

/-- The magic-number datapath is round (R111). -/
theorem roundByMagic_eq_roundEven (d x : BitVec w) : roundByMagic F d x = roundEven F x := by
  rw [roundByMagic]
  split_ifs with hhuge hsmall
  · rw [roundEven, if_pos hhuge]
  · rw [roundEven, if_neg hhuge, if_pos hsmall]
  · rw [magicRound, fpSub_fpAdd_magicNumber hF d (Nat.lt_of_not_le hhuge)]
    exact and_signMask_or_magnitude hF.toLaneFormat (roundsBy_roundEven hF x).1

end

end Sys2Proof.Machine

/-! PROOF. The sign bits of the rounding family (O48), the magic-number round (O50), fract as a difference (O51) and
the sum of trunc and fract (O52). -/

namespace Sys2Proof.Rule

open Sys2Proof.Machine

/-- Settles O48: each result is a lane of the same sign, for each format. -/
theorem roundingKeepsTheSignBit : Obligations.RoundingKeepsTheSignBit :=
  ⟨fun _ => rounding_sign roundingFormat_binary32, fun _ => rounding_sign roundingFormat_binary64⟩

/-- Settles O50: the sum with 2^p rounds the magnitude to its nearest integer and the difference is exact, for each
format. -/
theorem magicNumberRoundIsRound : Obligations.MagicNumberRoundIsRound :=
  ⟨roundByMagic_eq_roundEven roundingFormat_binary32, roundByMagic_eq_roundEven roundingFormat_binary64⟩

/-- Settles O51: the difference has the value of fract, which is a lane's own, for each format. -/
theorem fractIsTheDifference : Obligations.FractIsTheDifference :=
  ⟨fract_eq_fractDifference roundingFormat_binary32, fract_eq_fractDifference roundingFormat_binary64⟩

/-- Settles O52: the sum has the value of the lane, and a zero sum is +0, for each format. -/
theorem truncPlusFractIsTheLane : Obligations.TruncPlusFractIsTheLane :=
  ⟨fun d d' _ hfin h => (fpAdd_trunc_fract roundingFormat_binary32 d d' hfin).trans (if_neg h),
    fun d d' _ hfin h => (fpAdd_trunc_fract roundingFormat_binary64 d d' hfin).trans (if_neg h),
    fun d d' => fpAdd_trunc_fract roundingFormat_binary32 d d' (by decide),
    fun d d' => fpAdd_trunc_fract roundingFormat_binary64 d d' (by decide)⟩

end Sys2Proof.Rule

/-! PROOF. The seed table: no operation reads it (O19), and how the datapath's seed is read from it (O28). -/

namespace Sys2Proof.Rule

open Sys2Proof.Machine

/-- Of the configuration an operation's lane function reads an accuracy parameter at most, so the same R answers under
either table (R150, R180). -/
theorem exec_answer_seedTable (i : Instr) (s : State) (table : Vector (BitVec 16) 128) :
    ∃ v, exec i s = .next (s.answer v i.lanes.count) ∧
      exec i { s with cfg := { s.cfg with seedTable := table } } =
        .next (State.answer v i.lanes.count { s with cfg := { s.cfg with seedTable := table } }) := by
  cases i <;> exact ⟨_, rfl, rfl⟩

/-- Settles O19: the same answer under both tables, and an answer leaves the configuration as it is. -/
theorem noResultReadsTheSeedTable : Obligations.NoResultReadsTheSeedTable := by
  intro i s table
  obtain ⟨v, hv, hv'⟩ := exec_answer_seedTable i s table
  exact ⟨_, hv, hv'⟩

theorem seedIndex_eq_extractLsb (ix : BitVec 32) : seedIndex ix = ix.extractLsb 23 17 := by
  apply BitVec.eq_of_toNat_eq
  rw [seedIndex, BitVec.toNat_ofNat, BitVec.extractLsb_toNat]
  exact Nat.mod_mod _ _

theorem getElem?_eq_seedRom (table : Vector (BitVec 16) 128) (i : BitVec 7) :
    table[i.toNat]? = some (seedRom table i) :=
  Vector.getElem?_eq_getElem i.isLt

/-- Placing 16 bits in the upper half of a word is appending zeros. -/
theorem setWidth_shiftLeft_eq_append (v : BitVec 16) : v.setWidth 32 <<< 16 = v ++ 0#16 := by
  rw [BitVec.append_def, BitVec.shiftLeftZeroExtend_eq, BitVec.setWidth'_eq, BitVec.setWidth_zero, BitVec.or_zero]

/-- Settles O28: the index has 7 bits, as many as address the 128 entries. -/
theorem seedRomIsReadByBits23To17 : Obligations.SeedRomIsReadByBits23To17 :=
  ⟨fun ix => ⟨seedIndex_eq_extractLsb ix, Nat.mod_mod _ _⟩, getElem?_eq_seedRom,
    fun _ _ => setWidth_shiftLeft_eq_append _⟩

end Sys2Proof.Rule

/-! SUPPORT. The integer algorithm of the square root (R155): its operand, the scaled significand, and its integer root
and remainder. -/

namespace Sys2Proof.Machine

theorem bitLength_two_mul {M : Nat} (h : M ≠ 0) : bitLength (2 * M) = bitLength M + 1 := by
  rw [bitLength, bitLength, if_neg h, if_neg (by omega), Nat.log2_two_mul h]

theorem bitLength_le_of_lt {M n : Nat} (h : M < 2 ^ n) : bitLength M ≤ n := by
  by_cases hM : M = 0
  · simp [bitLength, hM]
  · rw [bitLength, if_neg hM]
    exact (Nat.log2_lt hM).mpr h

theorem bitLength_pos {M : Nat} (h : M ≠ 0) : 0 < bitLength M := by
  rw [bitLength, if_neg h]
  exact Nat.succ_pos _

theorem evenExact_of_odd {v : Exact} (h : v.k % 2 = 1) : evenExact v = ⟨v.s, 2 * v.M, v.k - 1⟩ := by
  rw [evenExact, if_pos h, Nat.shiftLeft_eq, pow_one, Nat.mul_comm]

theorem evenExact_of_even {v : Exact} (h : v.k % 2 = 0) : evenExact v = v := by
  rw [evenExact, if_neg (by omega)]

/-- What the algorithm relies on in its operand `M * 2^k`: k is even, M is not 0 and has at most the p + 1 bits of a
significand and one more, and the binade is that of a finite lane. -/
structure RootOperand (F : Fmt) (v : Exact) : Prop where
  even : v.k % 2 = 0
  M_ne_zero : v.M ≠ 0
  bitLength_le : bitLength v.M ≤ F.p + 2
  le_binade : 1 - (F.bias : Int) - F.p ≤ binade v.M v.k
  binade_le : binade v.M v.k ≤ F.bias

/-- Making the exponent even leaves the binade. -/
theorem rootOperand_evenExact {F : Fmt} {v : Exact} (hM : v.M ≠ 0) (hbits : bitLength v.M ≤ F.p + 1)
    (hlow : 1 - (F.bias : Int) - F.p ≤ v.k) (hhigh : v.k ≤ F.bias - F.p) : RootOperand F (evenExact v) := by
  have hpos := bitLength_pos hM
  have hlen := bitLength_two_mul hM
  rcases Int.emod_two_eq_zero_or_one v.k with heven | hodd
  · rw [evenExact_of_even heven]
    exact ⟨heven, hM, by omega, by rw [binade]; omega, by rw [binade]; omega⟩
  · rw [evenExact_of_odd hodd]
    refine ⟨?_, ?_, ?_, ?_, ?_⟩ <;> simp only [binade] <;> omega

theorem abs_toRat_evenExact (v : Exact) : |(evenExact v).toRat| = |v.toRat| := by
  rcases Int.emod_two_eq_zero_or_one v.k with heven | hodd
  · rw [evenExact_of_even heven]
  · rw [evenExact_of_odd hodd, abs_toRat, abs_toRat, zpow_sub_one₀ two_ne_zero]
    push_cast
    ring

section
variable {F : Fmt} {w : Nat} (hF : RoundingFormat F w)
include hF

theorem bitLength_decodeLane_le (x : BitVec w) : bitLength (decodeLane F x).M ≤ F.p + 1 := by
  have hfrac := frac_toNat_lt F hF.p_lt.le x
  rw [decodeLane]
  split_ifs
  · exact (bitLength_le_of_lt hfrac).trans (Nat.le_succ _)
  · rw [frac_or_two_pow hF]
    exact bitLength_le_of_lt (by dsimp only; omega)

/-- The exponents of the finite lanes run from the subnormals' to MAX's. -/
theorem decodeLane_k_bounds {x : BitVec w} (hfin : isFinite F x = true) :
    1 - (F.bias : Int) - F.p ≤ (decodeLane F x).k ∧ (decodeLane F x).k ≤ F.bias - F.p := by
  have hbias := hF.bias_pos
  have hones := hF.expOnes_eq
  have hle := expField_le F hF.width x
  have hne := (isFinite_iff_expField F x).mp hfin
  rw [decodeLane]
  split_ifs <;> dsimp only <;> omega

theorem rootOperand_of_isFinite {x : BitVec w} (hfin : isFinite F x = true) (h0 : isZero x = false) :
    RootOperand F (evenExact (decodeLane F x)) :=
  rootOperand_evenExact (decodeLane_M_ne_zero hF.toLaneFormat h0) (bitLength_decodeLane_le hF x)
    (decodeLane_k_bounds hF hfin).1 (decodeLane_k_bounds hF hfin).2

end

/-- `N = M << 2q`, the operand of the integer root. -/
def sqrtScaled (F : Fmt) (M : Nat) : Nat := M <<< (2 * sqrtScale F M)

section
variable {F : Fmt} {M : Nat} (hM : M ≠ 0) (hbits : bitLength M ≤ F.p + 2) (hp : 0 < F.p)
include hbits hp

/-- The scaling leaves 2p + 1 or 2p + 2 bits. -/
theorem bitLength_add_sqrtScale :
    2 * F.p + 1 ≤ bitLength M + 2 * sqrtScale F M ∧ bitLength M + 2 * sqrtScale F M ≤ 2 * F.p + 2 := by
  rw [sqrtScale]
  omega

include hM

theorem sqrtScaled_bounds : 2 ^ F.p * 2 ^ F.p ≤ sqrtScaled F M ∧ sqrtScaled F M < 2 ^ (F.p + 1) * 2 ^ (F.p + 1) := by
  obtain ⟨hlow, hhigh⟩ := bitLength_bounds M hM
  obtain ⟨hlow', hhigh'⟩ := bitLength_add_sqrtScale hbits hp
  have hpos := bitLength_pos hM
  rw [sqrtScaled, Nat.shiftLeft_eq, ← Nat.pow_add, ← Nat.pow_add]
  constructor
  · calc 2 ^ (F.p + F.p) ≤ 2 ^ (bitLength M - 1 + 2 * sqrtScale F M) := Nat.pow_le_pow_right (by decide) (by omega)
      _ = 2 ^ (bitLength M - 1) * 2 ^ (2 * sqrtScale F M) := Nat.pow_add ..
      _ ≤ M * 2 ^ (2 * sqrtScale F M) := Nat.mul_le_mul_right _ hlow
  · calc M * 2 ^ (2 * sqrtScale F M) < 2 ^ bitLength M * 2 ^ (2 * sqrtScale F M) :=
          Nat.mul_lt_mul_of_pos_right hhigh (Nat.two_pow_pos _)
      _ = 2 ^ (bitLength M + 2 * sqrtScale F M) := (Nat.pow_add ..).symm
      _ ≤ 2 ^ (F.p + 1 + (F.p + 1)) := Nat.pow_le_pow_right (by decide) (by omega)

theorem sqrtRoot_eq_sqrt : sqrtRoot F M = Nat.sqrt (sqrtScaled F M) :=
  isqrt_eq_sqrt _ _ ((sqrtScaled_bounds hM hbits hp).2.trans_eq (Nat.mul_pow 2 2 _).symm)

/-- The integer root has p + 1 bits. -/
theorem sqrtRoot_bounds : 2 ^ F.p ≤ sqrtRoot F M ∧ sqrtRoot F M < 2 * 2 ^ F.p := by
  obtain ⟨hlow, hhigh⟩ := sqrtScaled_bounds hM hbits hp
  rw [sqrtRoot_eq_sqrt hM hbits hp, ← Nat.pow_succ']
  exact ⟨Nat.le_sqrt.mpr hlow, Nat.sqrt_lt.mpr hhigh⟩

/-- `N = S*S + rem`, and the remainder is below the next square. -/
theorem sqrtScaled_eq_add_rem :
    sqrtScaled F M = sqrtRoot F M * sqrtRoot F M + sqrtRem F M ∧ sqrtRem F M ≤ 2 * sqrtRoot F M := by
  have hle := Nat.sqrt_le (sqrtScaled F M)
  have hlt := Nat.sqrt_le_add (sqrtScaled F M)
  have hrem : sqrtRem F M = sqrtScaled F M - sqrtRoot F M * sqrtRoot F M := rfl
  rw [← sqrtRoot_eq_sqrt hM hbits hp] at hle hlt
  omega

end

end Sys2Proof.Machine

/-! PROOF. The square root answers as its rules say (O40, O41). -/

namespace Sys2Proof.Rule

open Sys2Proof.Machine

/-- The rule doubles M and lowers k when k is odd (R155). -/
theorem sqrtCR_of_odd (p bias M : Nat) {k : Int} (h : k % 2 = 1) :
    Rule.sqrtCR p bias M k = Rule.sqrtCR p bias (2 * M) (k - 1) := by
  have heven : ¬ (k - 1) % 2 = 1 := by omega
  simp only [Rule.sqrtCR, if_pos h, if_neg heven, Nat.mul_comm M 2]

/-- From an even k on, the rule's algorithm is the model's, with Nat.sqrt for isqrt. -/
theorem sqrtPattern_eq_of_even {F : Fmt} (w : Nat) (hp : 0 < F.p) {v : Exact} (hk : v.k % 2 = 0) (hM : v.M ≠ 0)
    (hbits : bitLength v.M ≤ F.p + 2) :
    sqrtPattern F w v (sqrtRoot F v.M + if sqrtRem F v.M > sqrtRoot F v.M then 1 else 0) =
      BitVec.ofNat w (Rule.sqrtCR F.p F.bias v.M v.k) := by
  have hscale : (2 * F.p + 2 - (v.M.log2 + 1)) / 2 = sqrtScale F v.M := by rw [sqrtScale, bitLength, if_neg hM]
  have hscaled : v.M * 2 ^ (2 * sqrtScale F v.M) = sqrtScaled F v.M := (Nat.shiftLeft_eq _ _).symm
  have hrem : sqrtScaled F v.M - sqrtRoot F v.M * sqrtRoot F v.M = sqrtRem F v.M := rfl
  have hodd : ¬ v.k % 2 = 1 := by omega
  simp only [Rule.sqrtCR, if_neg hodd, hscale, hscaled, ← sqrtRoot_eq_sqrt hM hbits hp, hrem, sqrtPattern, sqrtExp,
    Int.pred_toNat]

theorem sqrtCR_eq_rule {F : Fmt} {w : Nat} (hF : RoundingFormat F w) {x : BitVec w} (h0 : isZero x = false) :
    Machine.sqrtCR F x =
      BitVec.ofNat w (Rule.sqrtCR F.p F.bias (decodeLane F x).M (decodeLane F x).k) := by
  have hM := decodeLane_M_ne_zero hF.toLaneFormat h0
  have hbits := bitLength_decodeLane_le hF x
  rw [Machine.sqrtCR]
  rcases Int.emod_two_eq_zero_or_one (decodeLane F x).k with heven | hodd
  · rw [evenExact_of_even heven]
    exact sqrtPattern_eq_of_even w hF.p_pos heven hM (by omega)
  · have hlen := bitLength_two_mul hM
    rw [sqrtCR_of_odd _ _ _ hodd, evenExact_of_odd hodd]
    exact sqrtPattern_eq_of_even w hF.p_pos (v := ⟨_, _, _⟩) (by dsimp only; omega) (by dsimp only; omega)
      (by dsimp only; omega)

theorem decode32_eq (x : BitVec 32) : decode32 x = ((decodeLane binary32 x).M, (decodeLane binary32 x).k) := by
  rw [decode32, decodeLane, e32_eq_expField]
  split_ifs
  · rfl
  · rw [frac_or_two_pow roundingFormat_binary32, Nat.add_comm]
    rfl

theorem decode64_eq (x : BitVec 64) : decode64 x = ((decodeLane binary64 x).M, (decodeLane binary64 x).k) := by
  rw [decode64, decodeLane, e64_eq_expField]
  split_ifs
  · rfl
  · rw [frac_or_two_pow roundingFormat_binary64, Nat.add_comm]
    rfl

theorem choose_eq_or {w : Nat} (d lo hi : BitVec w) : choose d lo hi = lo ∨ choose d lo hi = hi := by
  rw [choose]
  exact (ite_eq_or_eq _ _ _).symm

/-- y is a result that R150 admits for x, for any format: SqrtF32 and SqrtF64 without their literals. -/
def SqrtRule (F : Fmt) (acc : SqrtAcc) {w : Nat} (x y : BitVec w) : Prop :=
  if x = posInf F w ∨ magnitude x = 0 then y = x
  else if isNaN F x = true ∨ sign x = true then isNaN F y = true
  else match acc with
    | .correctlyRounded => y = BitVec.ofNat w (Rule.sqrtCR F.p F.bias (decodeLane F x).M (decodeLane F x).k)
    | .faithful => y = sqrtDown F x ∨ y = sqrtUp F x
    | .signOnly => sign y = false

theorem sqrtRule_sqrt {F : Fmt} {w : Nat} (hF : RoundingFormat F w) (acc : SqrtAcc) (d x : BitVec w) :
    SqrtRule F acc x (sqrt F acc d x) := by
  unfold SqrtRule sqrt
  split_ifs with hself hnan
  · rfl
  · exact isNaN_anyNaN hF.toLaneFormat d
  · have h0 : isZero x = false := beq_false_of_ne (not_or.mp hself).2
    cases acc with
    | correctlyRounded => exact sqrtCR_eq_rule hF h0
    | faithful => exact choose_eq_or d _ _
    | signOnly => exact sign_magnitude (Nat.zero_lt_of_lt hF.one_lt) d

theorem sqrtF32_sqrt (g : Config) (d x : BitVec 32) : SqrtF32 g x (sqrt binary32 g.accSqrtF32 d x) := by
  have hrule := sqrtRule_sqrt roundingFormat_binary32 g.accSqrtF32 d x
  simp only [SqrtF32, isNaN32_iff, getLsbD_31_eq_sign, decode32_eq]
  exact hrule

theorem sqrtF64_sqrt (g : Config) (d x : BitVec 64) : SqrtF64 g x (sqrt binary64 g.accSqrtF64 d x) := by
  have hrule := sqrtRule_sqrt roundingFormat_binary64 g.accSqrtF64 d x
  simp only [SqrtF64, isNaN64_iff, getLsbD_63_eq_sign, decode64_eq]
  exact hrule

/-- Settles O40: each form applies the root to its lanes, which gives what the rule admits. -/
theorem sqrtBinary32 : Obligations.SqrtBinary32 := by
  refine ⟨rfl, rfl, rfl, ?_, ?_, ?_⟩
  all_goals
    exact unaryAnswers_of_exec (fun g => sqrt binary32 g.accSqrtF32) (fun _ => rfl) (by decide) (by decide) sqrtF32_sqrt

/-- Settles O41: each form applies the root to its lanes, which gives what the rule admits. -/
theorem sqrtBinary64 : Obligations.SqrtBinary64 := by
  refine ⟨rfl, rfl, rfl, ?_, ?_, ?_⟩
  all_goals
    exact unaryAnswers_of_exec (fun g => sqrt binary64 g.accSqrtF64) (fun _ => rfl) (by decide) (by decide) sqrtF64_sqrt

end Sys2Proof.Rule

/-! SUPPORT. The integer root as a magnitude pattern: the real root lies between its value and the next one, and the
remainder tells on which side of the midpoint (R90, R152, R155). -/

namespace Sys2Proof.Machine

/-- The magnitude pattern of the root rounded down. -/
def rootPattern (F : Fmt) (v : Exact) : Nat := (sqrtExp F v - 1) * 2 ^ F.p + sqrtRoot F v.M

/-- The weight of the last bit of the root's significand. -/
def rootUnit (F : Fmt) (v : Exact) : ℚ := 2 ^ (v.k / 2 - (sqrtScale F v.M : Int))

theorem rootUnit_pos (F : Fmt) (v : Exact) : 0 < rootUnit F v := zpow_pos two_pos _

theorem abs_toRat_eq_sqrtScaled (F : Fmt) {v : Exact} (hk : v.k % 2 = 0) :
    |v.toRat| = (sqrtScaled F v.M : ℚ) * rootUnit F v ^ 2 := by
  have hexp : (v.k : Int) = ((2 * sqrtScale F v.M : Nat) : Int) + (v.k / 2 - sqrtScale F v.M) * 2 := by
    push_cast
    omega
  rw [abs_toRat, sqrtScaled, Nat.shiftLeft_eq, rootUnit, ← zpow_natCast (_ ^ _) 2, ← zpow_mul]
  nth_rw 1 [hexp]
  rw [zpow_add₀ two_ne_zero, zpow_natCast]
  push_cast
  ring

section
variable {F : Fmt} {w : Nat} (hF : RoundingFormat F w) {v : Exact} (hv : RootOperand F v)
include hF hv

/-- The root's biased exponent, before the significand's leading bit is added into it, lies well within the format's. -/
theorem sqrtExp_bounds : ((sqrtExp F v - 1 : Nat) : Int) = v.k / 2 - sqrtScale F v.M + F.p + F.bias - 1 ∧
    sqrtExp F v < 2 * F.bias := by
  have hscale := bitLength_add_sqrtScale hv.bitLength_le hF.p_pos
  have hp := hF.p_lt_bias
  have hk := hv.even
  have hlow := hv.le_binade
  have hhigh := hv.binade_le
  rw [binade] at hlow hhigh
  rw [sqrtExp]
  omega

theorem magValue_rootPattern : magValue F (rootPattern F v) = sqrtRoot F v.M * rootUnit F v := by
  obtain ⟨hlow, hhigh⟩ := sqrtRoot_bounds hv.M_ne_zero hv.bitLength_le hF.p_pos
  have hexp := (sqrtExp_bounds hF hv).1
  rw [rootPattern, magValue_pattern F (.inr hlow) hhigh.le, hexp, rootUnit]
  congr 2
  ring

theorem magValue_rootPattern_succ : magValue F (rootPattern F v + 1) = (sqrtRoot F v.M + 1) * rootUnit F v := by
  obtain ⟨hlow, hhigh⟩ := sqrtRoot_bounds hv.M_ne_zero hv.bitLength_le hF.p_pos
  have hexp := (sqrtExp_bounds hF hv).1
  rw [rootPattern, Nat.add_assoc, magValue_pattern F (.inr (by omega)) hhigh, hexp, rootUnit]
  push_cast
  congr 2
  ring

/-- The root's pattern and the one after it are normals. -/
theorem rootPattern_bounds : 2 ^ F.p ≤ rootPattern F v ∧ rootPattern F v + 1 < infPattern F := by
  obtain ⟨hlow, hhigh⟩ := sqrtRoot_bounds hv.M_ne_zero hv.bitLength_le hF.p_pos
  have hpos := Nat.two_pow_pos F.p
  have hexp := Nat.mul_le_mul_right (2 ^ F.p) (show sqrtExp F v - 1 + 2 ≤ 2 * F.bias by
    have := sqrtExp_bounds hF hv
    omega)
  rw [Nat.add_mul] at hexp
  rw [rootPattern, infPattern, hF.expOnes_eq, Nat.succ_mul (2 * F.bias)]
  omega

/-- The value in units of the root's last bit: the square of the root and the remainder. -/
theorem abs_toRat_eq_root_sq_add_rem :
    |v.toRat| = ((sqrtRoot F v.M : ℚ) ^ 2 + sqrtRem F v.M) * rootUnit F v ^ 2 := by
  rw [abs_toRat_eq_sqrtScaled F hv.even, (sqrtScaled_eq_add_rem hv.M_ne_zero hv.bitLength_le hF.p_pos).1]
  push_cast
  ring

theorem sq_mul_rootUnit_lt_iff (t : ℚ) :
    (t * rootUnit F v) ^ 2 < |v.toRat| ↔ t ^ 2 < (sqrtRoot F v.M : ℚ) ^ 2 + sqrtRem F v.M := by
  rw [abs_toRat_eq_root_sq_add_rem hF hv, mul_pow, mul_lt_mul_iff_left₀ (pow_pos (rootUnit_pos F v) 2)]

theorem lt_sq_mul_rootUnit_iff (t : ℚ) :
    |v.toRat| < (t * rootUnit F v) ^ 2 ↔ (sqrtRoot F v.M : ℚ) ^ 2 + sqrtRem F v.M < t ^ 2 := by
  rw [abs_toRat_eq_root_sq_add_rem hF hv, mul_pow, mul_lt_mul_iff_left₀ (pow_pos (rootUnit_pos F v) 2)]

theorem magValue_rootPattern_sq_lt_iff : magValue F (rootPattern F v) ^ 2 < |v.toRat| ↔ sqrtRem F v.M ≠ 0 := by
  rw [magValue_rootPattern hF hv, sq_mul_rootUnit_lt_iff hF hv, lt_add_iff_pos_right, Nat.cast_pos, Nat.pos_iff_ne_zero]

theorem magValue_rootPattern_sq_le : magValue F (rootPattern F v) ^ 2 ≤ |v.toRat| := by
  rw [← not_lt, magValue_rootPattern hF hv, lt_sq_mul_rootUnit_iff hF hv, not_lt]
  exact le_add_of_nonneg_right (Nat.cast_nonneg _)

theorem lt_magValue_rootPattern_succ_sq : |v.toRat| < magValue F (rootPattern F v + 1) ^ 2 := by
  have hrem : (sqrtRem F v.M : ℚ) ≤ 2 * sqrtRoot F v.M := by
    exact_mod_cast (sqrtScaled_eq_add_rem hv.M_ne_zero hv.bitLength_le hF.p_pos).2
  rw [magValue_rootPattern_succ hF hv, lt_sq_mul_rootUnit_iff hF hv]
  linarith [add_sq (sqrtRoot F v.M : ℚ) 1]

theorem midpoint_rootPattern : midpoint F (rootPattern F v) = (sqrtRoot F v.M + 1 / 2) * rootUnit F v := by
  rw [midpoint, magValue_rootPattern hF hv, magValue_rootPattern_succ hF hv]
  ring

theorem midpoint_rootPattern_sq_lt (h : sqrtRoot F v.M < sqrtRem F v.M) :
    midpoint F (rootPattern F v) ^ 2 < |v.toRat| := by
  have hrem : (sqrtRoot F v.M : ℚ) + 1 ≤ sqrtRem F v.M := by exact_mod_cast h
  rw [midpoint_rootPattern hF hv, sq_mul_rootUnit_lt_iff hF hv]
  linarith [add_sq (sqrtRoot F v.M : ℚ) (1 / 2)]

theorem lt_midpoint_rootPattern_sq (h : sqrtRem F v.M ≤ sqrtRoot F v.M) :
    |v.toRat| < midpoint F (rootPattern F v) ^ 2 := by
  have hrem : (sqrtRem F v.M : ℚ) ≤ sqrtRoot F v.M := by exact_mod_cast h
  rw [midpoint_rootPattern hF hv, lt_sq_mul_rootUnit_iff hF hv]
  linarith [add_sq (sqrtRoot F v.M : ℚ) (1 / 2)]

end

end Sys2Proof.Machine

/-! SUPPORT. The roots of a lane as positive normal patterns, and the neighbours of the real root (R90, R152). -/

namespace Sys2Proof.Machine

theorem withSign_false_add_one (w n : Nat) : (withSign false n : BitVec w) + 1 = withSign false (n + 1) := by
  simp [withSign, BitVec.ofNat_add]

theorem withSign_false_sub_one (w : Nat) {n : Nat} (h : n ≠ 0) :
    (withSign false n : BitVec w) - 1 = withSign false (n - 1) := by
  obtain ⟨m, rfl⟩ := Nat.exists_eq_succ_of_ne_zero h
  rw [Nat.succ_eq_add_one, ← withSign_false_add_one, Nat.add_sub_cancel, BitVec.add_sub_cancel]

theorem midpoint_nonneg (F : Fmt) (n : Nat) : 0 ≤ midpoint F n := (magValue_nonneg F n).trans (lt_midpoint F n).le

section
variable {F : Fmt} {w : Nat} (hF : LaneFormat F w)
include hF

theorem value_withSign_false {n : Nat} (h : n ≤ infPattern F) :
    value F (withSign false n : BitVec w) = magValue F n := by
  rw [(signedValue_withSign hF false h).value_eq hF]
  simp

theorem classify_withSign_false {n : Nat} (hlow : 2 ^ F.p ≤ n) (hhigh : n < infPattern F) :
    classify F (withSign false n : BitVec w) = .normal ∧ sign (withSign false n : BitVec w) = false := by
  have hE : expField F (withSign false n : BitVec w) = n / 2 ^ F.p := by
    rw [expField, magnitude_withSign_of_le hF hhigh.le, Nat.shiftRight_eq_div_pow]
  refine ⟨(classify_table hF _).2.2.1.mpr ⟨?_, ?_⟩, sign_withSign_of_le hF hhigh.le⟩
  · rw [hE]
    exact Nat.div_pos hlow (Nat.two_pow_pos _)
  · rw [hE]
    exact Nat.le_sub_one_of_lt (Nat.div_lt_of_lt_mul (Nat.mul_comm _ _ ▸ hhigh))

theorem sqrtLower_withSign {x : BitVec w} {n : Nat} (hlow : 2 ^ F.p ≤ n) (hhigh : n < infPattern F)
    (hle : magValue F n ^ 2 ≤ value F x) (hlt : value F x < magValue F (n + 1) ^ 2) :
    Rule.SqrtLower F x (withSign false n) := by
  obtain ⟨hnormal, hsign⟩ := classify_withSign_false hF hlow hhigh
  refine ⟨hnormal, hsign, ?_, ?_⟩
  · rwa [value_withSign_false hF hhigh.le]
  · rwa [withSign_false_add_one, value_withSign_false hF hhigh]

theorem sqrtUpper_withSign {x : BitVec w} {n : Nat} (hlow : 2 ^ F.p ≤ n) (hhigh : n < infPattern F)
    (hlt : magValue F (n - 1) ^ 2 < value F x) (hle : value F x ≤ magValue F n ^ 2) :
    Rule.SqrtUpper F x (withSign false n) := by
  obtain ⟨hnormal, hsign⟩ := classify_withSign_false hF hlow hhigh
  have hpos := Nat.two_pow_pos F.p
  refine ⟨hnormal, hsign, ?_, ?_⟩
  · rwa [withSign_false_sub_one w (by omega), value_withSign_false hF (by omega)]
  · rwa [value_withSign_false hF hhigh.le]

theorem sqrtNearest_withSign {x : BitVec w} {n : Nat} (hn : n ≠ 0) (hhigh : n < infPattern F)
    (hlow : midpoint F (n - 1) ^ 2 < value F x) (hlt : value F x < midpoint F n ^ 2) :
    Rule.SqrtNearest F x (withSign false n) := by
  rw [midpoint, Nat.sub_add_cancel (Nat.pos_of_ne_zero hn)] at hlow
  rw [Rule.SqrtNearest, withSign_false_sub_one w hn, withSign_false_add_one, value_withSign_false hF hhigh.le,
    value_withSign_false hF hhigh, value_withSign_false hF (by omega)]
  exact ⟨hlow, hlt⟩

end

section
variable {F : Fmt} {w : Nat} (x : BitVec w)

theorem sqrtPattern_eq_withSign (v : Exact) (i : Nat) :
    sqrtPattern F w v (sqrtRoot F v.M + i) = withSign false (rootPattern F v + i) := by
  simp [sqrtPattern, rootPattern, withSign, Nat.add_assoc]

theorem sqrtDown_eq_withSign : sqrtDown F x = withSign false (rootPattern F (evenExact (decodeLane F x))) :=
  sqrtPattern_eq_withSign _ 0

theorem sqrtUp_eq_withSign : sqrtUp F x = withSign false (rootPattern F (evenExact (decodeLane F x)) +
    if sqrtRem F (evenExact (decodeLane F x)).M = 0 then 0 else 1) :=
  sqrtPattern_eq_withSign _ _

theorem sqrtCR_eq_withSign : sqrtCR F x = withSign false (rootPattern F (evenExact (decodeLane F x)) +
    if sqrtRem F (evenExact (decodeLane F x)).M > sqrtRoot F (evenExact (decodeLane F x)).M then 1 else 0) :=
  sqrtPattern_eq_withSign _ _

end

section
variable {F : Fmt} {w : Nat} (hF : RoundingFormat F w) {v : Exact} (hv : RootOperand F v) {x : BitVec w}
  (hx : value F x = |v.toRat|)
include hF hv hx

theorem sqrtLower_rootPattern : Rule.SqrtLower F x (withSign false (rootPattern F v)) := by
  obtain ⟨hlow, hhigh⟩ := rootPattern_bounds hF hv
  exact sqrtLower_withSign hF.toLaneFormat hlow (Nat.lt_of_succ_lt hhigh)
    ((magValue_rootPattern_sq_le hF hv).trans_eq hx.symm) (hx.trans_lt (lt_magValue_rootPattern_succ_sq hF hv))

/-- Without a remainder the root is the pattern's value; with one it is strictly between that and the next value. -/
theorem sqrtUpper_rootPattern :
    Rule.SqrtUpper F x (withSign false (rootPattern F v + if sqrtRem F v.M = 0 then 0 else 1)) := by
  obtain ⟨hlow, hhigh⟩ := rootPattern_bounds hF hv
  have hrem := magValue_rootPattern_sq_lt_iff hF hv
  rw [← hx] at hrem
  split_ifs with hexact
  · have hprev : magValue F (rootPattern F v - 1) < magValue F (rootPattern F v) :=
      magValue_strictMono F (Nat.sub_lt ((Nat.two_pow_pos F.p).trans_le hlow) Nat.one_pos)
    exact sqrtUpper_withSign hF.toLaneFormat hlow (Nat.lt_of_succ_lt hhigh)
      ((pow_lt_pow_left₀ hprev (magValue_nonneg F _) two_ne_zero).trans_le
        ((magValue_rootPattern_sq_le hF hv).trans_eq hx.symm))
      (not_lt.mp (hrem.not_left.mpr hexact))
  · exact sqrtUpper_withSign hF.toLaneFormat (hlow.trans (Nat.le_succ _)) hhigh (hrem.mpr hexact)
      (hx.trans_lt (lt_magValue_rootPattern_succ_sq hF hv)).le

/-- The remainder decides the midpoint between the two candidates; the midpoint beyond the candidate taken lies on the
far side of it. -/
theorem sqrtNearest_rootPattern :
    Rule.SqrtNearest F x
      (withSign false (rootPattern F v + if sqrtRem F v.M > sqrtRoot F v.M then 1 else 0)) := by
  obtain ⟨hlow, hhigh⟩ := rootPattern_bounds hF hv
  have hpos := (Nat.two_pow_pos F.p).trans_le hlow
  split_ifs with habove
  · have hnext := pow_lt_pow_left₀ (lt_midpoint F (rootPattern F v + 1)) (magValue_nonneg F _) two_ne_zero
    exact sqrtNearest_withSign hF.toLaneFormat (Nat.succ_ne_zero _) hhigh
      ((midpoint_rootPattern_sq_lt hF hv habove).trans_eq hx.symm)
      (hx.trans_lt ((lt_magValue_rootPattern_succ_sq hF hv).trans hnext))
  · have hprev := midpoint_lt F (rootPattern F v - 1)
    rw [Nat.sub_add_cancel hpos] at hprev
    exact sqrtNearest_withSign hF.toLaneFormat hpos.ne' (Nat.lt_of_succ_lt hhigh)
      ((pow_lt_pow_left₀ hprev (midpoint_nonneg F _) two_ne_zero).trans_le
        ((magValue_rootPattern_sq_le hF hv).trans_eq hx.symm))
      (hx.trans_lt (lt_midpoint_rootPattern_sq hF hv (not_lt.mp habove)))

/-- A lane whose square is the value is the root's pattern, since it lies from there on and before the next one. -/
theorem eq_rootPattern_of_sq_eq {y : BitVec w} (hs : sign y = false) (hy : value F y ^ 2 = value F x) :
    withSign false (rootPattern F v) = y ∧ sqrtRem F v.M = 0 := by
  have hmag : value F y = magValue F (magnitude y).toNat := by
    rw [value_eq_magValue hF.toLaneFormat, hs]
    simp
  have hsq : magValue F (magnitude y).toNat ^ 2 = |v.toRat| := by rw [← hmag, hy, hx]
  have hlow := (magValue_rootPattern_sq_le hF hv).trans_eq hsq.symm
  have hhigh := hsq.trans_lt (lt_magValue_rootPattern_succ_sq hF hv)
  rw [pow_le_pow_iff_left₀ (magValue_nonneg F _) (magValue_nonneg F _) two_ne_zero,
    (magValue_strictMono F).le_iff_le] at hlow
  rw [pow_lt_pow_iff_left₀ (magValue_nonneg F _) (magValue_nonneg F _) two_ne_zero,
    (magValue_strictMono F).lt_iff_lt] at hhigh
  have hpattern : rootPattern F v = (magnitude y).toNat := by omega
  constructor
  · rw [hpattern, ← hs, withSign_sign_magnitude hF.toLaneFormat]
  · rw [← hpattern] at hsq
    exact (magValue_rootPattern_sq_lt_iff hF hv).not_left.mp hsq.not_lt

end

section
variable {F : Fmt} {w : Nat} (hF : RoundingFormat F w) {x : BitVec w} (hfin : isFinite F x = true)
  (hs : sign x = false) (h0 : isZero x = false)
include hF hs

theorem value_eq_abs_evenExact : value F x = |(evenExact (decodeLane F x)).toRat| := by
  rw [abs_toRat_evenExact, value_eq_sign_mul_abs hF.toLaneFormat, hs]
  simp [value]

include hfin h0

theorem sqrtCR_nearest : classify F (sqrtCR F x) = .normal ∧ sign (sqrtCR F x) = false ∧
    Rule.SqrtNearest F x (sqrtCR F x) := by
  have hv := rootOperand_of_isFinite hF hfin h0
  obtain ⟨hlow, hhigh⟩ := rootPattern_bounds hF hv
  have hnearest := sqrtNearest_rootPattern hF hv (value_eq_abs_evenExact hF hs)
  rw [sqrtCR_eq_withSign, ← and_assoc]
  refine ⟨classify_withSign_false hF.toLaneFormat (hlow.trans (Nat.le_add_right _ _)) ?_, hnearest⟩
  split_ifs <;> omega

theorem sqrt_faithful_neighbours : Rule.SqrtLower F x (sqrtDown F x) ∧ Rule.SqrtUpper F x (sqrtUp F x) ∧
    ∀ y : BitVec w, isFinite F y = true → sign y = false → value F y ^ 2 = value F x →
      sqrtCR F x = y ∧ sqrtDown F x = y ∧ sqrtUp F x = y := by
  have hv := rootOperand_of_isFinite hF hfin h0
  have hx := value_eq_abs_evenExact hF hs
  rw [sqrtDown_eq_withSign, sqrtUp_eq_withSign, sqrtCR_eq_withSign]
  refine ⟨sqrtLower_rootPattern hF hv hx, sqrtUpper_rootPattern hF hv hx, fun y _ hys hy => ?_⟩
  obtain ⟨rfl, hrem⟩ := eq_rootPattern_of_sq_eq hF hv hx hys hy
  simp [hrem]

end

end Sys2Proof.Machine

/-! PROOF. The correctly rounded root is nearest to the real root (O59), and the faithful roots are its neighbours
(O60). -/

namespace Sys2Proof.Rule

open Sys2Proof.Machine

/-- Settles O59, for each format: the remainder against the integer root tells on which side of the midpoint the real
root lies, and it is never on it. -/
theorem sqrtIsTheNearestRepresentableRoot : Obligations.SqrtIsTheNearestRepresentableRoot :=
  ⟨fun _ => sqrtCR_nearest roundingFormat_binary32, fun _ => sqrtCR_nearest roundingFormat_binary64⟩

/-- Settles O60, for each format: the integer root's pattern and the next one enclose the real root. -/
theorem sqrtFaithfulNeighbours : Obligations.SqrtFaithfulNeighbours :=
  ⟨fun _ => sqrt_faithful_neighbours roundingFormat_binary32,
    fun _ => sqrt_faithful_neighbours roundingFormat_binary64⟩

end Sys2Proof.Rule

/-! SUPPORT. The integer value of R182 is the model's exact value, and what each accuracy setting chooses for an exact
value (R181). -/

namespace Sys2Proof.Machine

theorem decodeLane_s (F : Fmt) {w : Nat} (x : BitVec w) : (decodeLane F x).s = sign x := by
  rw [decodeLane]
  split_ifs <;> rfl

theorem signedScaled_eq_signed_mul (s : Bool) (M n : Nat) : signedScaled s M n = Rule.signed s (M : Int) * 2 ^ n := by
  cases s <;> simp [signedScaled, Rule.signed]

theorem M_eq_zero_iff_toRat_eq_zero (v : Exact) : v.M = 0 ↔ v.toRat = 0 :=
  not_iff_not.mp ⟨toRat_ne_zero, M_ne_zero_of_toRat_ne_zero⟩

/-- A value from the smallest normal on passes for a normal one (R181). -/
theorem atLeastNormal_of_le_abs (F : Fmt) {v : Exact} (h0 : v.M ≠ 0)
    (hle : (2 : ℚ) ^ (1 - (F.bias : Int)) ≤ |v.toRat|) : atLeastNormal F v = true := by
  have hbinade := (zpow_lt_zpow_iff_right₀ one_lt_two).mp (hle.trans_lt (abs_toRat_lt_two_zpow_binade h0))
  exact decide_eq_true (Int.lt_add_one_iff.mp hbinade)

theorem faithfulChoice_mem_faithful (F : Fmt) {w : Nat} (d : BitVec w) (v : Exact) :
    faithfulChoice F d v ∈ faithful F w v :=
  List.mem_pair.mpr (Rule.choose_eq_or d _ _)

/-- The choice of any setting is RNE or the faithful member drawn (R181). -/
theorem fmaChoice_eq_or (F : Fmt) (acc : FmaAcc) {w : Nat} (d : BitVec w) (v : Exact) :
    fmaChoice F acc d v = rne F w v ∨ fmaChoice F acc d v = faithfulChoice F d v := by
  cases acc with
  | correctlyRounded => exact .inl rfl
  | crNormal => exact ite_eq_or_eq _ _ _
  | faithful => exact .inr rfl

theorem fmaChoice_of_representable (F : Fmt) (acc : FmaAcc) {w : Nat} (d : BitVec w) {v : Exact}
    (hr : representable F v = true) : fmaChoice F acc d v = rne F w v :=
  (fmaChoice_eq_or F acc d v).elim id (·.trans (faithfulChoice_of_representable F d hr))

theorem fmaChoice_crNormal_of_atLeastNormal (F : Fmt) {w : Nat} (d : BitVec w) {v : Exact}
    (hn : atLeastNormal F v = true) : fmaChoice F .crNormal d v = rne F w v :=
  if_pos (by rw [hn, Bool.true_or])

section
variable {F : Fmt} {w : Nat} (hF : LaneFormat F w)
include hF

theorem fmaChoice_mem_faithful (acc : FmaAcc) (d : BitVec w) {v : Exact} (h : v.M ≠ 0) :
    fmaChoice F acc d v ∈ faithful F w v := by
  rcases fmaChoice_eq_or F acc d v with heq | heq <;> rw [heq]
  · exact rne_mem_faithful hF h
  · exact faithfulChoice_mem_faithful F d v

/-- Every setting returns the lane that has the exact value. -/
theorem fmaChoice_eq_of_value (acc : FmaAcc) (d : BitVec w) {v : Exact} {z : BitVec w} (h : v.M ≠ 0)
    (hfin : isFinite F z = true) (hz : value F z = v.toRat) : fmaChoice F acc d v = z :=
  (fmaChoice_of_representable F acc d ((representable_iff_exists_value hF h).mpr ⟨z, hfin, hz⟩)).trans
    (rne_eq_of_value hF h hfin hz)

end

/-- An fma lane of finite operands whose exact value is not zero is the setting's choice for that value (R180). -/
theorem fma_eq_fmaChoice_of_value_ne_zero (F : Fmt) (acc : FmaAcc) {w : Nat} (d : BitVec w) {a b c : BitVec w}
    (ha : isFinite F a = true) (hb : isFinite F b = true) (hc : isFinite F c = true)
    (h0 : value F a * value F b + value F c ≠ 0) :
    (fmaExact F a b c).M ≠ 0 ∧ fma F acc d a b c = fmaChoice F acc d (fmaExact F a b c) := by
  rw [isFinite_iff_expField] at ha hb hc
  rw [← toRat_fmaExact] at h0
  have hM := M_ne_zero_of_toRat_ne_zero h0
  exact ⟨hM, fma_eq_fmaChoice F acc d ha hb hc hM⟩

end Sys2Proof.Machine

/-! SUPPORT. A ternary operation answers with its lane function in every lane (R25, R27, R95), and the rule of fma with
its literals against the model's lane function (R180 to R182). -/

namespace Sys2Proof.Rule

open Sys2Proof.Machine

/-- A ternary operation that applies `op` to each lane answers as the rule asks when `op` does in one lane. -/
theorem ternaryAnswers_of_exec {i : Instr} {w n : Nat}
    {admits : Config → BitVec w → BitVec w → BitVec w → BitVec w → Prop}
    (op : Config → BitVec w → BitVec w → BitVec w → BitVec w → BitVec w)
    (hexec : ∀ s, exec i s = answerTernary w n (op s.cfg) s) (hw : 0 < w) (hn : w * n ≤ 512)
    (hop : ∀ g d a b c, admits g a b c (op g d a b c)) : TernaryAnswers i w n admits := by
  intro s
  refine ⟨_, (hexec s).trans (answerTernary_next w n _ s), ?_, fun k hk => ?_, fun j hj => ?_⟩
  · simp [OnlyAnswers]
  · rw [State.answer_r, lane_ternaryResult w n _ s k hn hk]
    exact hop _ _ _ _ _
  · exact packLanes_high w hw _ n j hn hj

/-- `Nv * 2^k0` as sign and magnitude is the model's exact value (R182). -/
theorem fmaExact_eq_fmaValue (a b c : BitVec 32) :
    fmaExact binary32 a b c =
      ⟨decide ((fmaValue a b c).1 < 0), (fmaValue a b c).1.natAbs, (fmaValue a b c).2⟩ := by
  simp only [fmaExact, exactSum, exactProduct, fmaValue, decode32_eq, decodeLane_s, signedScaled_eq_signed_mul,
    getLsbD_31_eq_sign]

theorem fmaValue_eq_zero_iff (a b c : BitVec 32) : (fmaValue a b c).1 = 0 ↔ (fmaExact binary32 a b c).M = 0 := by
  rw [fmaExact_eq_fmaValue, Int.natAbs_eq_zero]

theorem withSign_posInf_binary32 (s : Bool) :
    withSign s (posInf binary32 32).toNat = if s then 0xFF800000#32 else 0x7F800000#32 := by
  cases s <;> rfl

theorem fmaSet_fmaChoice (acc : FmaAcc) (d : BitVec 32) (v : Exact) : FmaSet acc v (fmaChoice binary32 acc d v) := by
  cases acc with
  | correctlyRounded => rfl
  | faithful => exact faithfulChoice_mem_faithful binary32 d v
  | crNormal =>
    simp only [FmaSet, fmaChoice, Bool.or_eq_true]
    split_ifs
    · rfl
    · exact faithfulChoice_mem_faithful binary32 d v

/-- The lane function takes the rule's cases in its order (R180). -/
theorem fmaF32_fma (g : Config) (d a b c : BitVec 32) : FmaF32 g a b c (fma binary32 g.accFmaF32 d a b c) := by
  have hnan := isNaN_anyNaN laneFormat_binary32 d
  simp only [FmaF32, isNaN32_iff, isInf32_iff, isZero32_iff, getLsbD_31_eq_sign, fmaValue_eq_zero_iff,
    ← fmaExact_eq_fmaValue, ← withSign_posInf_binary32, fma]
  split_ifs with hany hprod hinf hsub hc hM hzeros hneg
  · exact hnan
  · exact hnan
  · exact hnan
  · rfl
  · rfl
  · rfl
  · rfl
  · rfl
  · exact fmaSet_fmaChoice _ d _

end Sys2Proof.Rule

/-! PROOF. fma answers as its rule says (O42), is exact where the result is representable (O57), and is RNE or faithful
as the accuracy setting asks (O58). -/

namespace Sys2Proof.Rule

open Sys2Proof.Machine

/-- Settles O42: each form applies fma to its lanes, which gives what the rule admits. -/
theorem fmaBinary32 : Obligations.FmaBinary32 := by
  refine ⟨rfl, rfl, rfl, ?_, ?_, ?_⟩
  all_goals
    exact ternaryAnswers_of_exec (fun g => fma binary32 g.accFmaF32) (fun _ => rfl) (by decide) (by decide) fmaF32_fma

/-- Settles O57: the exact value is the rational, and every setting returns the lane that has it. -/
theorem fmaExactResultsUnderEveryAccuracy : Obligations.FmaExactResultsUnderEveryAccuracy := by
  intro a b c ha hb hc
  have hrat := toRat_fmaExact binary32 a b c
  refine ⟨hrat, hrat ▸ M_eq_zero_iff_toRat_eq_zero _, fun acc d z h0 hfin hz => ?_⟩
  obtain ⟨hM, hfma⟩ := fma_eq_fmaChoice_of_value_ne_zero binary32 acc d ha hb hc h0
  rw [hfma]
  exact fmaChoice_eq_of_value laneFormat_binary32 acc d hM hfin (hz.trans hrat.symm)

/-- Settles O58: the lane is the setting's choice for the exact value, which is RNE where the setting asks for it and
otherwise a faithful member. -/
theorem fmaCorrectlyRoundedInTheNormalRange : Obligations.FmaCorrectlyRoundedInTheNormalRange := by
  intro d a b c ha hb hc h0
  have hchoice := fun acc => fma_eq_fmaChoice_of_value_ne_zero binary32 acc d ha hb hc h0
  have hM := (hchoice .correctlyRounded).1
  refine ⟨(hchoice .correctlyRounded).2, fun hle => ?_, fun acc => ?_⟩
  · rw [← toRat_fmaExact] at hle
    rw [(hchoice .crNormal).2]
    exact fmaChoice_crNormal_of_atLeastNormal binary32 d (atLeastNormal_of_le_abs binary32 hM hle)
  · rw [(hchoice acc).2]
    exact fmaChoice_mem_faithful laneFormat_binary32 acc d hM

end Sys2Proof.Rule

/-! SUPPORT. A step by its kind, where the reset line, the stuck bit and the queue decide it (R202, R206, R212), and
the stuck bit after a step (R206, R220). -/

namespace Sys2Proof.Machine

theorem step_idle {s : State} (hr : s.resetLine = false) (hs : s.stuck = false) (hq : s.requests = []) :
    step s = .next s.idle := by
  simp [step, hr, hs, hq]

/-- The step on a legal request is one answer to it, of as many lanes as its operation has. -/
theorem step_legal_answer {s : State} {q : Request} {rest : List Request} {i : Instr}
    (hr : s.resetLine = false) (hs : s.stuck = false) (hq : s.requests = q :: rest)
    (hi : legalOperation s.cfg q.opsel = .ok i) :
    ∃ v, step s = .next ((s.takeRequest q rest).answer v i.lanes.count) := by
  obtain ⟨v, hv⟩ := exec_answer i (s.takeRequest q rest)
  exact ⟨v, (step_legal hr hs hq hi).trans hv⟩

theorem exec_stuck {i : Instr} {s t : State} (h : exec i s = .next t) : t.stuck = s.stuck := by
  obtain ⟨v, hv⟩ := exec_answer i s
  cases hv.symm.trans h
  exact State.answer_stuck s v _

/-- A step answers only in reset, which clears the stuck bit, or on a unit that is not stuck, which it leaves so. -/
theorem step_next_not_stuck {s t : State} (h : step s = .next t) : t.stuck = false := by
  rcases step_cases s with ⟨-, hs⟩ | ⟨-, -, hs⟩ | ⟨⟨hstuck, -⟩, -, hs⟩ | ⟨q, rest, i, ⟨hstuck, -⟩, -, -, hs⟩ |
    ⟨q, rest, e, ⟨hstuck, -⟩, -, -, hs⟩
  · cases hs.symm.trans h
    exact State.takeReset_stuck s
  · cases hs.symm.trans h
  · cases hs.symm.trans h
    exact hstuck
  · exact (exec_stuck (hs.symm.trans h)).trans hstuck
  · cases hs.symm.trans h
    exact hstuck

theorem step_stuck {s : State} (hs : s.stuck = true) (hr : s.resetLine = false) : step s = .fault .stuck := by
  simp [step, hr, hs]

/-- Every other kind of step answers a next state, so the fault tells that the unit is stuck. -/
theorem stuck_of_step_fault {s : State} (h : step s = .fault .stuck) : s.stuck = true ∧ s.resetLine = false := by
  rcases step_cases s with ⟨-, hs⟩ | ⟨hr, hs, -⟩ | ⟨-, -, hs⟩ | ⟨q, rest, i, -, -, -, hs⟩ | ⟨q, rest, e, -, -, -, hs⟩
  · cases hs.symm.trans h
  · exact ⟨hs, hr⟩
  · cases hs.symm.trans h
  · obtain ⟨v, hv⟩ := exec_answer i (s.takeRequest q rest)
    cases (hs.trans hv).symm.trans h
  · cases hs.symm.trans h

end Sys2Proof.Machine

/-! PROOF. Exceptions: the illegal request (O6), the completion of every operation (O7), the stuck unit (O8) and the
idle unit (O11). -/

namespace Sys2Proof.Rule

open Sys2Proof.Machine

theorem onlyAnswers_answer (s : State) (v : Bus) (n : Nat) : OnlyAnswers s (s.answer v n) := by
  simp [OnlyAnswers]

/-- Settles O6: the step on an illegal request is takeIllegalOpsel, which leaves the rest of the queue and the unit
responsive; the step on a legal one, there or behind an illegal one, is an answer. -/
theorem illegalRequestIsAnsweredAndTheUnitGoesOn : Obligations.IllegalRequestIsAnsweredAndTheUnitGoesOn := by
  refine ⟨rfl, fun s q rest e hr hs hq he => ?_, fun s q rest i hr hs hq hi => ?_,
    fun s t q q' rest e i hr hs hq he hi ht => ?_⟩
  · exact ⟨_, step_illegal hr hs hq he, rfl, rfl, rfl, rfl, rfl, rfl, rfl, rfl, rfl, rfl, hs, hr⟩
  · obtain ⟨v, hv⟩ := step_legal_answer hr hs hq hi
    exact ⟨_, hv, (step_legal hr hs hq hi).symm.trans hv, rfl, rfl, rfl⟩
  · cases (step_illegal hr hs hq he).symm.trans ht
    obtain ⟨v, hv⟩ := step_legal_answer (s := (s.takeRequest q (q' :: rest)).takeIllegalOpsel) hr hs rfl hi
    exact ⟨_, hv, rfl, rfl, rfl⟩

/-- Settles O7: an operation's answer is its lanes packed, and an answer touches the response port and the count. -/
theorem everyOperationCompletesOnEveryOperand : Obligations.EveryOperationCompletesOnEveryOperand := by
  intro i s
  obtain ⟨f, hf⟩ := exec_answer_packLanes i s
  exact ⟨_, hf, onlyAnswers_answer s _ _, fun _ => packLanes_vectorBits_high i f, State.answer_draws s _ _⟩

/-- Settles O8, by the cases of a step: only a stuck unit out of reset gives the fault, and no case leaves it stuck. -/
theorem stuckUnitAnswersNothingUntilReset : Obligations.StuckUnitAnswersNothingUntilReset :=
  ⟨fun _ => ⟨stuck_of_step_fault, fun ⟨hs, hr⟩ => step_stuck hs hr⟩, fun _ _ => step_next_not_stuck,
    fun s hr => ⟨_, step_reset hr, State.takeReset_stuck s⟩⟩

/-- Settles O11: the step is idle, which withdraws the two marks. -/
theorem idleUnitPresentsNoResponse : Obligations.IdleUnitPresentsNoResponse :=
  fun _ => step_idle

end Sys2Proof.Rule

/-! SUPPORT. A request accepted behind others goes through a step unchanged (R227); one step, and a run of steps, of a
responsive unit (R44, R200). -/

namespace Sys2Proof.Machine

/-- The response presented in t is the one that an instance configured as g owes the request q: q stands on the
request port, and ILLEGAL is as q's OPSEL requires (R25, R202). -/
def State.AnswersRequest (t : State) (g : Config) (q : Request) : Prop :=
  t.presented = true ∧ t.opsel = q.opsel ∧ t.a = q.a ∧ t.b = q.b ∧ t.c = q.c ∧ t.illegal = illegalBit g q.opsel

theorem answersRequest_answer {s : State} {q : Request} {i : Instr} (rest : List Request) (v : Bus) (n : Nat)
    (hi : legalOperation s.cfg q.opsel = .ok i) : ((s.takeRequest q rest).answer v n).AnswersRequest s.cfg q :=
  ⟨rfl, rfl, rfl, rfl, rfl, (illegalBit_of_ok hi).symm⟩

theorem answersRequest_takeIllegalOpsel {s : State} {q : Request} {e : IllegalReason} (rest : List Request)
    (he : legalOperation s.cfg q.opsel = .error e) :
    (s.takeRequest q rest).takeIllegalOpsel.AnswersRequest s.cfg q :=
  ⟨rfl, rfl, rfl, rfl, rfl, (illegalBit_of_error he).symm⟩

/-- A step of a responsive unit answers its oldest request, if it has one, and leaves it responsive. -/
theorem step_of_responsive {s : State} (h : s.responsive) :
    ∃ t, step s = .next t ∧ t.responsive ∧ t.requests = s.requests.tail ∧
      ∀ q, s.requests.head? = some q → t.AnswersRequest s.cfg q := by
  obtain ⟨hs, hr⟩ := h
  cases hq : s.requests with
  | nil => exact ⟨s.idle, step_idle hr hs hq, ⟨hs, hr⟩, hq, fun _ h => nomatch h⟩
  | cons q rest =>
    cases hl : legalOperation s.cfg q.opsel with
    | ok i =>
      obtain ⟨v, hv⟩ := step_legal_answer hr hs hq hl
      refine ⟨_, hv, ⟨hs, hr⟩, rfl, ?_⟩
      rintro _ ⟨⟩
      exact answersRequest_answer rest v _ hl
    | error e =>
      refine ⟨_, step_illegal hr hs hq hl, ⟨hs, hr⟩, rfl, ?_⟩
      rintro _ ⟨⟩
      exact answersRequest_takeIllegalOpsel rest hl

/-- A run of one step more takes that step last. -/
theorem run_succ_of_step (M : Host.Core) {k : Nat} {s t u : M.State} (hrun : M.run k s = .next t)
    (hstep : M.step t = .next u) : M.run (k + 1) s = .next u := by
  induction k generalizing s with
  | zero =>
    cases hrun
    simp only [Host.Core.run, hstep]
  | succ k ih =>
    cases hs : M.step s with
    | next s' =>
      simp only [Host.Core.run, hs] at hrun
      rw [Host.Core.run, hs]
      exact ih hrun
    | fault r => simp [Host.Core.run, hs] at hrun
    | refused r => simp [Host.Core.run, hs] at hrun

/-- An operation does not read the queue, so accepting a request commutes with it. -/
theorem exec_accept (i : Instr) (s : State) (q : Request) :
    ∃ t, exec i s = .next t ∧ exec i (s.accept q) = .next (t.accept q) := by
  obtain ⟨v, hv, hv'⟩ := exec_answer_same i (s := s) (s' := s.accept q) rfl rfl rfl rfl rfl
  exact ⟨_, hv, hv'⟩

end Sys2Proof.Machine

/-! PROOF. Reset (O9, O10, O13) and the order of the answers (O15, O16). -/

namespace Sys2Proof.Rule

open Sys2Proof.Machine

/-- Settles O10: the step is takeReset, which leaves an empty queue on a responsive unit, so the request accepted next
is the oldest one and the step on it is an answer. -/
theorem resetDropsRequestsInFlight : Obligations.ResetDropsRequestsInFlight := by
  intro s hr
  refine ⟨_, step_reset hr, rfl, rfl, rfl, rfl, rfl, fun q i hi => ?_⟩
  obtain ⟨v, hv⟩ := step_legal_answer (s := s.takeReset.accept q) rfl rfl rfl hi
  exact ⟨_, hv, rfl, rfl, rfl⟩

/-- Settles O15, by induction on the number of steps, the last one taken apart: it answers the head of what the steps
before it left of the queue. -/
theorem runAnswersTheRequestsInOrder : Obligations.RunAnswersTheRequestsInOrder := by
  intro s k hs
  induction k with
  | zero => exact ⟨s, rfl, hs, rfl, rfl, fun _ _ h => nomatch h⟩
  | succ k ih =>
    obtain ⟨t, hrun, ht, hcfg, hqueue, -⟩ := ih
    obtain ⟨u, hstep, hu, htail, hanswer⟩ := step_of_responsive ht
    rw [hqueue] at htail hanswer
    rw [hcfg] at hanswer
    refine ⟨u, run_succ_of_step core hrun hstep, hu, (step_cfg hstep).trans hcfg, htail.trans List.tail_drop, ?_⟩
    rintro n q ⟨⟩ hq
    exact hanswer q (List.head?_drop.trans hq)

/-- Settles O16: the request answered is the oldest one either way, and neither the operation nor the illegal response
reads the queue behind it. -/
theorem acceptingBehindDoesNotChangeAnAnswer : Obligations.AcceptingBehindDoesNotChangeAnAnswer := by
  intro s q ⟨hs, hr⟩ hne
  obtain ⟨q₀, rest, hq⟩ := List.exists_cons_of_ne_nil hne
  have hq' : (s.accept q).requests = q₀ :: (rest ++ [q]) := by
    rw [State.accept_requests, hq, List.cons_append]
  cases hl : legalOperation s.cfg q₀.opsel with
  | ok i =>
    obtain ⟨t, ht, ht'⟩ := exec_accept i (s.takeRequest q₀ rest) q
    exact ⟨t, (step_legal hr hs hq hl).trans ht, (step_legal (s := s.accept q) hr hs hq' hl).trans ht'⟩
  | error e => exact ⟨_, step_illegal hr hs hq hl, step_illegal (s := s.accept q) hr hs hq' hl⟩

/-- Settles O9: the default SUPPORTED is the list of all operations. -/
theorem resetStateHasNothingOutstanding : Obligations.ResetStateHasNothingOutstanding :=
  ⟨rfl, rfl, rfl, rfl, rfl, Instr.mem_all, rfl, rfl, rfl⟩

/-- Settles O13: the reset state presents no response and has recorded no fault. -/
theorem responseInvariantHoldsAtReset : Obligations.ResponseInvariantHoldsAtReset :=
  responseInv_of_not_presented rfl rfl

end Sys2Proof.Rule

/-! PROOF. Seven words written field by field (O2). -/

namespace Sys2Proof.Rule

open Sys2Proof.Machine

/-- Settles O2: each word's fields are the encoder's LN, FMT and OP codes of the operation it is to name (R60 to R64),
so it is that operation's encoding. -/
theorem fewWordsBitByBit : Obligations.FewWordsBitByBit :=
  ⟨decode_encode .truncF32x2, decode_encode .fractF32x4, decode_encode .floorF64x8, decode_encode .ceilF64x4,
    decode_encode .roundF32x8, decode_encode .sqrtF64x8, decode_encode .fmaF32x2⟩

end Sys2Proof.Rule
